-- ==== Sys2Proof/Word.lean ====
section
/-! DEFINITION. The word types of the block: registers, binary32 patterns, samples, command words. -/
namespace Sys2Proof

/-- One byte of a serialised command word, an opcode, a register index or a character code. -/
abbrev Byte := BitVec 8

/-- One 32-bit register or operand: an unsigned integer (00_scope.md R10, 10_state.md R21). -/
abbrev U32 := BitVec 32

/-- One IEEE-754 binary32 bit pattern, the sign in bit 31 (00_scope.md R10, 20_memory.md R53). -/
abbrev F32 := BitVec 32

/-- One audio sample, 16-bit two's complement (30_encoding.md R72). -/
abbrev I16 := BitVec 16

/-- One 48-bit command word of format CMD48 (30_encoding.md R71). -/
abbrev CommandWord := BitVec 48

end Sys2Proof
end

