-- ==== Sys2Proof/Machine/Arith.lean ====
section
/-! DEFINITION. The integer primitives of the spec's pseudocode (00_scope.md R10). -/
namespace Sys2Proof.Machine

/-- `sat32(v) = min(v, 2^32 - 1)` (00_scope.md R10). -/
def sat32 (v : Nat) : U32 := BitVec.ofNat 32 (min v 0xFFFFFFFF)

/-- `(now - t) mod 2^32`, the duration between two timestamps, as a natural (00_scope.md R10). -/
def elapsed (now t : U32) : Nat := (now - t).toNat

/-- `clamp(lo, hi, v) = max(lo, min(hi, v))` on unsigned 32-bit values (00_scope.md R10, 40_commands.md R94). -/
def clampU32 (lo hi v : U32) : U32 := BitVec.ofNat 32 (max lo.toNat (min hi.toNat v.toNat))

/-- `clamp(lo, hi, v)` of an integer between two registers' values (00_scope.md R10). -/
def clampInt (lo hi : U32) (v : Int) : U32 := BitVec.ofInt 32 (max (lo.toNat : Int) (min (hi.toNat : Int) v))

/-- `floor_div(a, b)`, toward minus infinity; `/` on Int is that for b > 0 (00_scope.md R10). -/
def floorDiv (a b : Int) : Int := a / b

end Sys2Proof.Machine
end

