-- ==== Sys2Proof/Config.lean ====
section
/-! DEFINITION. The parameters of the step relation (00_scope.md R6) and the free values. -/
namespace Sys2Proof

/-- One entry of the CharacterTable: the key (LEN, SYM) and the character code (44_symbol_decoder.md R164). -/
structure LutEntry where
  len  : Nat
  sym  : Nat
  code : Byte
  deriving DecidableEq, Repr

/-- The parameters no source fixes: those marked OPEN in 00_scope.md R6, with HOLD_MAX and CHAR_LUT, which
93_implementation_defined.md (I9, I12) also treats as parameters. They are fixed for a run (10_state.md R43);
every state carries them, so a statement for every state holds for every choice of them (assumption 1). -/
structure Params where
  /-- TFLOOR_RESET, a binary32 pattern. -/
  tfloorReset : F32
  /-- REACT_RESET. -/
  reactReset  : U32
  /-- HOLD_MAX, milliseconds. -/
  holdMax     : U32
  /-- HOLD_RESET, milliseconds. -/
  holdReset   : U32
  /-- NB_MAX, samples. -/
  nbMax       : U32
  /-- NBMIN_RESET, samples. -/
  nbminReset  : U32
  /-- GAIN_MIN. -/
  gainMin     : U32
  /-- GAIN_MAX. -/
  gainMax     : U32
  /-- GAIN_RESET. -/
  gainReset   : U32
  /-- LA_N, the loudness samples to settle. -/
  laN         : U32
  /-- G_T1, limit of the very loud band. -/
  gT1         : F32
  /-- G_T2, limit of the moderately loud band. -/
  gT2         : F32
  /-- G_T3, limit of the quiet-but-audible band. -/
  gT3         : F32
  /-- G_T4, limit below which the largest increase applies. -/
  gT4         : F32
  /-- G_D1, the decrease of the very loud band. -/
  gD1         : Nat
  /-- G_D2, the decrease of the moderately loud band. -/
  gD2         : Nat
  /-- G_U1, the increase of the very quiet band. -/
  gU1         : Nat
  /-- G_U2, the increase of the quietest band. -/
  gU2         : Nat
  /-- G_RECENT, the "recently loud" window in milliseconds. -/
  gRecent     : U32
  /-- CHAR_LUT, the CharacterTable. -/
  charLut     : List LutEntry
  deriving DecidableEq, Repr

/-- The five binary32 operations of 00_scope.md R11. -/
inductive FloatOp where
  | add | sub | mul | div | sqrt
  deriving DecidableEq, Repr

/-- FREE VALUE (assumption 6, DESIGN CHOICE, safe): the sign (bit 23) and the fraction (bits 22:0) of the NaN that an
operation delivers on two operands (a square root's second operand is 0). IEEE-754 leaves them open and the spec
names no pattern, so nothing constrains them; `Machine.nanPattern` makes a NaN of them. -/
opaque Config.freeNaN : FloatOp → F32 → F32 → BitVec 24

end Sys2Proof
end

