-- ==== Sys2Proof/Machine/Float.lean ====
section
/-! DEFINITION. IEEE-754 binary32 as 00_scope.md R11 asks for it: add, subtract, multiply, divide, square root, each
rounded once to nearest, ties to even; conversion from an integer; ordered comparisons. Every finite pattern is an
integer number of units of 2^-149 (the least positive subnormal), so each operation is computed exactly on integers
and rounded at the end. The facts of the standard are PRESUMED (assumption 9). -/
namespace Sys2Proof.Machine

/-! ## Patterns and classes -/

/-- The magnitude field of an infinity; a larger magnitude is a NaN. -/
def infMag : Nat := 0x7F800000

/-- The sign bit's weight. -/
def signBit : Nat := 0x80000000

/-- Bits 30:0 of a pattern. They order as the values do. -/
def fmag (x : F32) : Nat := x.toNat % signBit

/-- The pattern of a sign and a magnitude. -/
def fpack (neg : Bool) (m : Nat) : F32 := BitVec.ofNat 32 (if neg then signBit + m else m)

/-- The pattern with the other sign. -/
def fneg (x : F32) : F32 := x ^^^ BitVec.ofNat 32 signBit

/-- `isNaN(x)` of R11. -/
def isNaN (x : F32) : Bool := decide (infMag < fmag x)

/-- `isInf(x)` of R11, either sign. -/
def isInf (x : F32) : Bool := decide (fmag x = infMag)

/-- Neither NaN nor infinite. -/
def isFinite (x : F32) : Bool := decide (fmag x < infMag)

/-- A zero of either sign. -/
def isZero (x : F32) : Bool := decide (fmag x = 0)

/-- +0.0. -/
def posZero : F32 := 0x00000000

/-- +inf. -/
def posInf : F32 := 0x7F800000

/-- -inf. -/
def negInf : F32 := 0xFF800000

/-- The NaN an operation delivers: its sign and fraction are the free value `Config.freeNaN` (assumption 6);
a free fraction of 0, which would be an infinity, stands for the fraction 0x400000. -/
def nanPattern (op : FloatOp) (a b : F32) : F32 :=
  let r := Config.freeNaN op a b
  let frac := r.toNat % 0x800000
  fpack r.msb (infMag + (if frac = 0 then 0x400000 else frac))

/-! ## Values -/

/-- The value of a finite magnitude field, in units of 2^-149. -/
def units (m : Nat) : Nat :=
  if m < 0x800000 then m else (0x800000 + m % 0x800000) * 2 ^ (m / 0x800000 - 1)

/-- The value of a finite pattern, in units of 2^-149. -/
def fval (x : F32) : Int := if x.msb then -(units (fmag x) : Int) else units (fmag x)

/-- How many low bits of a whole number of units do not fit a 24-bit significand. -/
def excessBits (q : Nat) : Nat := if q < 0x1000000 then 0 else Nat.log2 q - 23

/-- `num / den` rounded to the nearest integer, a tie to the even one. -/
def divNearestEven (num den : Nat) : Nat :=
  let q := num / den
  let r := num % den
  if den < 2 * r ∨ (2 * r = den ∧ q % 2 = 1) then q + 1 else q

/-- The magnitude field of the binary32 nearest the non-negative rational `num / den` units, ties to even; beyond the
largest finite value, the infinity. A significand that rounds up to 2^24 carries into the exponent field by itself. -/
def roundMag (num den : Nat) : Nat :=
  let k := excessBits (num / den)
  min (k * 0x800000 + divNearestEven num (den * 2 ^ k)) infMag

/-- The largest `r` below `r0 + 2^n` with `r * r ≤ x`, `r0` a lower bound: one bit of the root at a time. -/
def isqrtFrom (x : Nat) : Nat → Nat → Nat
  | 0, r => r
  | n + 1, r => isqrtFrom x n (if (r + 2 ^ n) * (r + 2 ^ n) ≤ x then r + 2 ^ n else r)

/-- The integer square root of `x < 2^428`. -/
def isqrt (x : Nat) : Nat := isqrtFrom x 214 0

/-! ## Operations -/

/-- Sum of two patterns; none where the standard delivers a NaN. An exact zero is +0 unless both operands are -0. -/
def fsum (a b : F32) : Option F32 :=
  if isNaN a || isNaN b then none
  else if isInf a then (if isInf b && a.msb != b.msb then none else some a)
  else if isInf b then some b
  else
    let n := fval a + fval b
    some (if n = 0 then fpack (a.msb && b.msb) 0 else fpack (decide (n < 0)) (roundMag n.natAbs 1))

/-- Product of two patterns; none where the standard delivers a NaN. -/
def fprod (a b : F32) : Option F32 :=
  let neg := a.msb != b.msb
  if isNaN a || isNaN b then none
  else if isInf a || isInf b then (if isZero a || isZero b then none else some (fpack neg infMag))
  else some (fpack neg (roundMag (units (fmag a) * units (fmag b)) (2 ^ 149)))

/-- Quotient of two patterns; none where the standard delivers a NaN. -/
def fquot (a b : F32) : Option F32 :=
  let neg := a.msb != b.msb
  if isNaN a || isNaN b then none
  else if isInf a then (if isInf b then none else some (fpack neg infMag))
  else if isInf b then some (fpack neg 0)
  else if isZero b then (if isZero a then none else some (fpack neg infMag))
  else some (fpack neg (roundMag (units (fmag a) * 2 ^ 149) (units (fmag b))))

/-- Square root of a pattern; none where the standard delivers a NaN. With `v` the value in units, the root in units is
the root of `v * 2^149`, at least 2^74: where the integer root `r` is not exact the true root lies strictly between
`r` and `r + 1`, on the same side of every rounding boundary as `r + 1/2`. -/
def froot (a : F32) : Option F32 :=
  if isNaN a then none
  else if isZero a then some a
  else if a.msb then none
  else if isInf a then some a
  else
    let x := units (fmag a) * 2 ^ 149
    let r := isqrt x
    some (fpack false (if r * r = x then roundMag r 1 else roundMag (2 * r + 1) 2))

/-- `fadd(a, b)` (R11). -/
def fadd (a b : F32) : F32 := (fsum a b).getD (nanPattern .add a b)

/-- `fsub(a, b)` (R11). -/
def fsub (a b : F32) : F32 := (fsum a (fneg b)).getD (nanPattern .sub a b)

/-- `fmul(a, b)` (R11). -/
def fmul (a b : F32) : F32 := (fprod a b).getD (nanPattern .mul a b)

/-- `fdiv(a, b)` (R11). -/
def fdiv (a b : F32) : F32 := (fquot a b).getD (nanPattern .div a b)

/-- `fsqrt(a)` (R11). -/
def fsqrt (a : F32) : F32 := (froot a).getD (nanPattern .sqrt a 0)

/-- `f32(n)` (R11): the binary32 nearest the integer, exact below 2^24. -/
def fofInt (n : Int) : F32 := fpack (decide (n < 0)) (roundMag (n.natAbs * 2 ^ 149) 1)

/-- `f32(n)` of an unsigned register. -/
def fofU32 (n : U32) : F32 := fofInt n.toNat

/-! ## Comparisons -/

/-- An integer that orders as the values of the non-NaN patterns do, both zeros at 0. -/
def fkey (x : F32) : Int := if x.msb then -(fmag x : Int) else fmag x

/-- `a < b`, false when an operand is NaN (R11). -/
def flt (a b : F32) : Bool := !isNaN a && !isNaN b && decide (fkey a < fkey b)

/-- `a <= b`, false when an operand is NaN (R11). -/
def fle (a b : F32) : Bool := !isNaN a && !isNaN b && decide (fkey a ≤ fkey b)

/-- `a > b`, false when an operand is NaN (R11). -/
def fgt (a b : F32) : Bool := flt b a

/-- `a >= b`, false when an operand is NaN (R11). -/
def fge (a b : F32) : Bool := fle b a

/-- `a == b`, false when an operand is NaN (R11). -/
def feq (a b : F32) : Bool := !isNaN a && !isNaN b && decide (fkey a = fkey b)

/-- `clamp(lo, hi, v)` of a non-NaN `v` (00_scope.md R10). -/
def fclamp (lo hi v : F32) : F32 := if flt v lo then lo else if flt hi v then hi else v

end Sys2Proof.Machine
end

