-- ==== Sys2Proof/Machine/Constants.lean ====
section
/-! DEFINITION. The constants the spec fixes (00_scope.md R6, rows with a value, and R7), and the well-formedness of the
parameters it leaves open. -/
namespace Sys2Proof.Machine

/-- FRAC, the binary32 nearest 0.3 (00_scope.md R6, 42_threshold_debounce.md R121). -/
def frac : F32 := 0x3E99999A

/-- -2.0 and +2.0, the bounds of COEFF (10_state.md R24). -/
def coeffMin : F32 := 0xC0000000

/-- +2.0 (10_state.md R24). -/
def coeffMax : F32 := 0x40000000

/-- CODE_CAP (00_scope.md R6, 44_symbol_decoder.md R160). -/
def codeCap : Nat := 7

/-- DUR_CAP, the number of DUR registers (00_scope.md R6, 10_state.md R38). -/
def durCap : Nat := 11

/-- WPM_T1 (43_timing_classifier.md R135). -/
def wpmT1 : Nat := 30

/-- WPM_T2 (43_timing_classifier.md R135). -/
def wpmT2 : Nat := 35

/-- NB_HYST (43_timing_classifier.md R145). -/
def nbHyst : Nat := 2

/-- SF10_RESET (10_state.md R28). -/
def sf10Reset : U32 := 50

/-- A key (LEN, SYM) of the CharacterTable with a code that is no space (44_symbol_decoder.md R164). -/
def lutEntryOk (e : LutEntry) : Bool :=
  decide (1 ≤ e.len) && decide (e.len ≤ codeCap) && decide (e.sym < 2 ^ e.len) && decide (e.code ≠ 0x20)

/-- No two entries with one key: CHAR_LUT is a partial function (44_symbol_decoder.md R164). -/
def lutKeysDistinct (t : List LutEntry) : Bool :=
  decide ((t.map fun e => (e.len, e.sym)).Nodup)

/-- The parameters keep the constraints of 00_scope.md R6, of the register ranges of 10_state.md R42 and of
44_symbol_decoder.md R164. A premise of statements, never of a step (assumption 10). -/
def paramsOk (p : Params) : Bool :=
  isFinite p.tfloorReset && fge p.tfloorReset posZero && !p.tfloorReset.msb &&
  decide (1 ≤ p.reactReset.toNat) && decide (p.reactReset.toNat ≤ 255) &&
  decide (p.holdReset.toNat ≤ p.holdMax.toNat) &&
  decide (1 ≤ p.nbminReset.toNat) && decide (p.nbminReset.toNat ≤ p.nbMax.toNat) &&
  decide (p.gainMin.toNat ≤ p.gainReset.toNat) && decide (p.gainReset.toNat ≤ p.gainMax.toNat) &&
  decide (1 ≤ p.laN.toNat) &&
  fgt p.gT1 p.gT2 && fgt p.gT2 p.gT3 && fgt p.gT3 p.gT4 && fge p.gT4 posZero &&
  decide (1 ≤ p.gD2) && decide (p.gD2 ≤ p.gD1) && decide (1 ≤ p.gU1) && decide (p.gU1 ≤ p.gU2) &&
  p.charLut.all lutEntryOk && lutKeysDistinct p.charLut

end Sys2Proof.Machine
end

