-- ==== Sys2Proof/Machine/Tc0.lean ====
section
/-! DEFINITION. The default CharacterTable (44_symbol_decoder.md R164) and the test configuration TC0 (00_scope.md R6),
the parameters `State.reset` takes (assumption 2). -/
namespace Sys2Proof.Machine

/-- The letters of the default CharacterTable: LEN, SYM, code (44_symbol_decoder.md R164). -/
def lutLetters : List LutEntry :=
  [⟨2, 0x02, 0x61⟩, ⟨4, 0x01, 0x62⟩, ⟨4, 0x05, 0x63⟩, ⟨3, 0x01, 0x64⟩, ⟨1, 0x00, 0x65⟩, ⟨4, 0x04, 0x66⟩,
   ⟨3, 0x03, 0x67⟩, ⟨4, 0x00, 0x68⟩, ⟨2, 0x00, 0x69⟩, ⟨4, 0x0E, 0x6A⟩, ⟨3, 0x05, 0x6B⟩, ⟨4, 0x02, 0x6C⟩,
   ⟨2, 0x03, 0x6D⟩, ⟨2, 0x01, 0x6E⟩, ⟨3, 0x07, 0x6F⟩, ⟨4, 0x06, 0x70⟩, ⟨4, 0x0B, 0x71⟩, ⟨3, 0x02, 0x72⟩,
   ⟨3, 0x00, 0x73⟩, ⟨1, 0x01, 0x74⟩, ⟨3, 0x04, 0x75⟩, ⟨4, 0x08, 0x76⟩, ⟨3, 0x06, 0x77⟩, ⟨4, 0x09, 0x78⟩,
   ⟨4, 0x0D, 0x79⟩, ⟨4, 0x03, 0x7A⟩]

/-- The digits of the default CharacterTable: LEN, SYM, code (44_symbol_decoder.md R164). -/
def lutDigits : List LutEntry :=
  [⟨5, 0x1E, 0x31⟩, ⟨5, 0x1C, 0x32⟩, ⟨5, 0x18, 0x33⟩, ⟨5, 0x10, 0x34⟩, ⟨5, 0x00, 0x35⟩, ⟨5, 0x01, 0x36⟩,
   ⟨5, 0x03, 0x37⟩, ⟨5, 0x07, 0x38⟩, ⟨5, 0x0F, 0x39⟩, ⟨5, 0x1F, 0x30⟩]

/-- The punctuation of the default CharacterTable: LEN, SYM, code (44_symbol_decoder.md R164). -/
def lutPunctuation : List LutEntry :=
  [⟨6, 0x2A, 0x2E⟩, ⟨6, 0x33, 0x2C⟩, ⟨6, 0x07, 0x3A⟩, ⟨6, 0x0C, 0x3F⟩, ⟨6, 0x1E, 0x27⟩, ⟨6, 0x21, 0x2D⟩,
   ⟨5, 0x09, 0x2F⟩, ⟨5, 0x0D, 0x28⟩, ⟨6, 0x2D, 0x29⟩, ⟨6, 0x12, 0x22⟩, ⟨5, 0x11, 0x3D⟩, ⟨5, 0x0A, 0x2B⟩,
   ⟨6, 0x16, 0x40⟩]

/-- The default CharacterTable (44_symbol_decoder.md R164). -/
def defaultLut : List LutEntry := lutLetters ++ lutDigits ++ lutPunctuation

/-- TC0 (00_scope.md R6, column TC0). These are test values, not claims about the hardware. -/
def tc0 : Params where
  tfloorReset := 0x42C80000   -- 100.0
  reactReset  := 6
  holdMax     := 65535
  holdReset   := 6
  nbMax       := 200
  nbminReset  := 40
  gainMin     := 0
  gainMax     := 127
  gainReset   := 64
  laN         := 2
  gT1         := 0x447A0000   -- 1000.0
  gT2         := 0x43FA0000   -- 500.0
  gT3         := 0x42480000   -- 50.0
  gT4         := 0x41200000   -- 10.0
  gD1         := 8
  gD2         := 2
  gU1         := 1
  gU2         := 4
  gRecent     := 100
  charLut     := defaultLut

end Sys2Proof.Machine
end

