-- ==== Sys2Proof/Machine/State.lean ====
section
/-! DEFINITION. The state of the block: the record of 10_state.md R45, its two inputs and what the model records.
INVENTORY.md lists every field with its rule and its reset value. -/
namespace Sys2Proof.Machine

/-- rawState and filteredState (00_scope.md R12): PRESENT reads as 1, ABSENT as 0. -/
inductive Tone where
  | absent
  | present
  deriving DecidableEq, Repr

/-- A symbol of the CodeBuffer (00_scope.md R12): DOT is 0, DASH is 1. -/
inductive Symbol where
  | dot
  | dash
  deriving DecidableEq, Repr

/-- The character event `Char(c, t, d)` (44_symbol_decoder.md R166). -/
structure CharEvent where
  /-- The 8-bit character code `c`. -/
  code : Byte
  /-- The timestamp `t` of the pass that produced it. -/
  time : U32
  /-- The per-symbol high durations `d` in milliseconds. -/
  durs : List U32
  deriving DecidableEq, Repr

/-- What the host presents at the block's inputs (30_encoding.md R70, 70_reset_and_hazards.md R220). -/
inductive PortInput where
  /-- One transaction of the command port. -/
  | command (w : CommandWord)
  /-- The reset input `rst` takes this level (true: asserted). -/
  | rst (level : Bool)
  deriving DecidableEq, Repr

/-- The error bits of STATUS (60_exceptions.md R204). -/
inductive ErrorBit where
  /-- ERR_CMD, STATUS bit 3 (R201). -/
  | cmd
  /-- ERR_HAZ, STATUS bit 4 (R202). -/
  | haz
  /-- ERR_NUM, STATUS bit 5 (R203). -/
  | num
  deriving DecidableEq, Repr

/-- The whole state (10_state.md R45; `rst` R220; `faultMark` R209; the output lists R235; `port` and `cfg` are the
model's own, assumptions 1 and 3). -/
structure State where
  /-- CTRL.SCAN (R22). -/
  scan : Bool
  /-- CTRL.AUTOTUNE (R22). -/
  autotune : Bool
  /-- CTRL.DIAG (R22). -/
  diag : Bool
  /-- STATUS.RAW (R23). -/
  raw : Tone
  /-- STATUS.FILT (R23). -/
  filt : Tone
  /-- STATUS.ERR_CMD (R23). -/
  errCmd : Bool
  /-- STATUS.ERR_HAZ (R23). -/
  errHaz : Bool
  /-- STATUS.ERR_NUM (R23). -/
  errNum : Bool
  /-- STATUS.NBS_CHG (R23). -/
  nbsChg : Bool
  /-- STATUS.STALL_DONE (R39). -/
  stallDone : Bool
  /-- STATUS.LAST_SPACE (R39). -/
  lastSpace : Bool
  /-- STATUS.LOUD_SEEN (R39). -/
  loudSeen : Bool
  /-- STATUS.PREV_RAW (R39). -/
  prevRaw : Tone
  /-- STATUS.PREV_FILT (R39). -/
  prevFilt : Tone
  /-- COEFF (R24). -/
  coeff : F32
  /-- TFLOOR (R25). -/
  tfloor : F32
  /-- REACT (R26). -/
  react : U32
  /-- HOLD (R27). -/
  hold : U32
  /-- SF10 (R28). -/
  sf10 : U32
  /-- NBMIN (R29). -/
  nbmin : U32
  /-- GAIN (R30). -/
  gain : U32
  /-- MAG (R31). -/
  mag : F32
  /-- THR (R31). -/
  thr : F32
  /-- LOUD (R32). -/
  loud : F32
  /-- LCNT (R32). -/
  lcnt : U32
  /-- Q1 (R33). -/
  q1 : F32
  /-- Q2 (R33). -/
  q2 : F32
  /-- SCNT (R33). -/
  scnt : U32
  /-- UNIT (R34). -/
  unit : U32
  /-- WPM (R34). -/
  wpm : U32
  /-- NBS (R34). -/
  nbs : U32
  /-- HIGHDUR (R35). -/
  highdur : U32
  /-- LOWDUR (R35). -/
  lowdur : U32
  /-- HIGHSTART (R35). -/
  highstart : U32
  /-- LOWSTART (R35). -/
  lowstart : U32
  /-- LASTRAWT (R36). -/
  lastrawt : U32
  /-- LASTLOUDT (R36). -/
  lastloudt : U32
  /-- CODE: the symbols received, first one first (R37, R45). -/
  code : List Symbol
  /-- DUR: the high durations of those symbols (R38, R45). -/
  dur : List U32
  /-- The level of the reset input (70_reset_and_hazards.md R220). -/
  rst : Bool
  /-- MODEL's own: the inputs not yet taken, oldest first (assumption 3). -/
  port : List PortInput
  /-- The model's never-cleared fault mark (60_exceptions.md R209). -/
  faultMark : Bool
  /-- MODEL's own record of the event output port (70_reset_and_hazards.md R235). -/
  events : List CharEvent
  /-- MODEL's own record of the gain port (70_reset_and_hazards.md R235). -/
  setGains : List U32
  /-- MODEL's own record of the read-response port (70_reset_and_hazards.md R235). -/
  responses : List U32
  /-- MODEL's own: the parameters, fixed for a run (10_state.md R43, assumption 1). -/
  cfg : Params
  deriving DecidableEq, Repr

/-- The reasons a step could stop with a fault: none. "No condition is fatal" (60_exceptions.md): every error sets a
sticky bit and the command completes as its rule says (R207), so the type has no constructor. -/
inductive Fault where
  deriving DecidableEq, Repr

/-- The reasons a step could be refused. -/
inductive Refusal where
  /-- Raised by an arm of `exec` for an instruction without a meaning. Safe: nothing is claimed of it. No arm raises it:
  every command has its meaning. -/
  | notModelled (mnemonic : String)
  deriving DecidableEq, Repr

/-- The complete reset state for the parameters `p` (70_reset_and_hazards.md R221), no input pending, nothing emitted. -/
def State.resetWith (p : Params) : State where
  scan := false
  autotune := false
  diag := false
  raw := .absent
  filt := .absent
  errCmd := false
  errHaz := false
  errNum := false
  nbsChg := false
  stallDone := false
  lastSpace := true
  loudSeen := false
  prevRaw := .absent
  prevFilt := .absent
  coeff := 0
  tfloor := p.tfloorReset
  react := p.reactReset
  hold := p.holdReset
  sf10 := sf10Reset
  nbmin := p.nbminReset
  gain := p.gainReset
  mag := 0
  thr := p.tfloorReset
  loud := 0
  lcnt := 0
  q1 := 0
  q2 := 0
  scnt := 0
  unit := 0
  wpm := 0
  nbs := clampU32 p.nbminReset p.nbMax 143
  highdur := 0
  lowdur := 0
  highstart := 0
  lowstart := 0
  lastrawt := 0
  lastloudt := 0
  code := []
  dur := []
  rst := false
  port := []
  faultMark := false
  events := []
  setGains := []
  responses := []
  cfg := p

/-- The machine right after reset, in the test configuration TC0 (assumption 2; 70_reset_and_hazards.md R221). -/
def State.reset : State := State.resetWith tc0

end Sys2Proof.Machine
end

