-- ==== Sys2Proof/Machine/Flags.lean ====
section
/-! DEFINITION. The register images made of fields: CTRL, STATUS, CODE (10_state.md R22, R23, R37; 40_commands.md R95). -/
namespace Sys2Proof.Machine

/-- PRESENT reads as 1, ABSENT as 0 (00_scope.md R12). -/
def toneBit : Tone → Bool
  | .absent => false
  | .present => true

/-- The tone of a two-valued test (00_scope.md R12). -/
def toneOf (b : Bool) : Tone := if b then .present else .absent

/-- DOT is 0, DASH is 1 (00_scope.md R12). -/
def symbolBit : Symbol → Nat
  | .dot => 0
  | .dash => 1

/-- SYM: bit i is symbol i, the bits at or above LEN are 0 (10_state.md R37). -/
def symBits : List Symbol → Nat
  | [] => 0
  | x :: xs => symbolBit x + 2 * symBits xs

/-- STATUS.SETTLED reads (LCNT = LA_N) (10_state.md R45, 45_gain_controller.md R182). -/
def settled (s : State) : Bool := decide (s.lcnt = s.cfg.laN)

/-- `zext_32({DIAG, AUTOTUNE, SCAN})` (40_commands.md R95). -/
def ctrlImage (s : State) : U32 :=
  (BitVec.ofBool s.diag ++ BitVec.ofBool s.autotune ++ BitVec.ofBool s.scan).setWidth 32

/-- The image of STATUS, bit 11 first (40_commands.md R95, 10_state.md R23). -/
def statusImage (s : State) : U32 :=
  (BitVec.ofBool (toneBit s.prevFilt) ++ BitVec.ofBool (toneBit s.prevRaw) ++ BitVec.ofBool s.loudSeen ++
   BitVec.ofBool s.lastSpace ++ BitVec.ofBool s.stallDone ++ BitVec.ofBool s.nbsChg ++ BitVec.ofBool s.errNum ++
   BitVec.ofBool s.errHaz ++ BitVec.ofBool s.errCmd ++ BitVec.ofBool (settled s) ++
   BitVec.ofBool (toneBit s.filt) ++ BitVec.ofBool (toneBit s.raw)).setWidth 32

/-- `zext_32({SYM[6:0], 0b0000, LEN[3:0]})` (40_commands.md R95, 10_state.md R37). -/
def codeImage (s : State) : U32 :=
  (BitVec.ofNat 7 (symBits s.code) ++ 0#4 ++ BitVec.ofNat 4 s.code.length).setWidth 32

/-- DURi: the duration of symbol i, 0 for i ≥ LEN (10_state.md R38). -/
def durImage (s : State) (i : Nat) : U32 := if i < s.code.length then s.dur.getD i 0 else 0

/-- A write to CTRL stores bits 2:0; bits 31:3 store nothing (10_state.md R22). -/
def State.writeCtrl (s : State) (v : U32) : State :=
  { s with scan := v.getLsbD 0, autotune := v.getLsbD 1, diag := v.getLsbD 2 }

end Sys2Proof.Machine
end

