-- ==== Sys2Proof/Machine/Registers.lean ====
section
/-! DEFINITION. The registers of the block by name, and the register index space (10_state.md R21, 20_memory.md R50). -/
namespace Sys2Proof.Machine

/-- The registers of the map 10_state.md R21, in index order; `dur i` is DURi. -/
inductive Reg where
  | ctrl | status | coeff | tfloor | react | hold | sf10 | nbmin | gain
  | mag | thr | loud | lcnt | q1 | q2 | scnt | unit | wpm | nbs
  | highdur | lowdur | highstart | lowstart | lastrawt | lastloudt | code
  | dur (i : Fin 11)
  deriving DecidableEq, Repr

/-- The mapped registers, the one of index `k` at position `k`: 0x00 to 0x24 (10_state.md R21). -/
def regTable : List Reg :=
  [.ctrl, .status, .coeff, .tfloor, .react, .hold, .sf10, .nbmin, .gain,
   .mag, .thr, .loud, .lcnt, .q1, .q2, .scnt, .unit, .wpm, .nbs,
   .highdur, .lowdur, .highstart, .lowstart, .lastrawt, .lastloudt, .code,
   .dur 0, .dur 1, .dur 2, .dur 3, .dur 4, .dur 5, .dur 6, .dur 7, .dur 8, .dur 9, .dur 10]

/-- The register of an index; none for the unmapped indices 0x25 to 0xFF (20_memory.md R50). -/
def regOfIndex (a : Byte) : Option Reg := regTable[a.toNat]?

/-- The index of a register (10_state.md R21). -/
def regIndex (r : Reg) : Byte := BitVec.ofNat 8 (regTable.idxOf r)

/-- A register's name in assembler text (30_encoding.md R80), in lower case: names are case-insensitive there. -/
def regName : Reg → String
  | .ctrl => "ctrl" | .status => "status" | .coeff => "coeff" | .tfloor => "tfloor" | .react => "react"
  | .hold => "hold" | .sf10 => "sf10" | .nbmin => "nbmin" | .gain => "gain" | .mag => "mag" | .thr => "thr"
  | .loud => "loud" | .lcnt => "lcnt" | .q1 => "q1" | .q2 => "q2" | .scnt => "scnt" | .unit => "unit"
  | .wpm => "wpm" | .nbs => "nbs" | .highdur => "highdur" | .lowdur => "lowdur" | .highstart => "highstart"
  | .lowstart => "lowstart" | .lastrawt => "lastrawt" | .lastloudt => "lastloudt" | .code => "code"
  | .dur i => "dur" ++ toString i.val

end Sys2Proof.Machine
end

