-- ==== Sys2Proof/Machine/Ops.lean ====
section
/-! DEFINITION. The shared operations: recording and clearing an error, the three output ports, and the only accesses to
the register index space, RegRead and RegWrite. -/
namespace Sys2Proof.Machine

/-! ## Errors (the block's only "exceptions") -/

/-- `flag ERR_x`: what the block does when an error condition occurs (60_exceptions.md R207). It sets the sticky STATUS
bit; no state is saved, no mode changes, control goes nowhere. The model's own fault mark is set with it (R209). -/
def State.flag (s : State) : ErrorBit → State
  | .cmd => { s with errCmd := true, faultMark := true }
  | .haz => { s with errHaz := true, faultMark := true }
  | .num => { s with errNum := true, faultMark := true }

/-- The only way back from an error (60_exceptions.md R208): a write to STATUS clears each RW1C bit whose data bit is 1
(10_state.md R23). It does not clear the fault mark (R209). -/
def State.clearSticky (s : State) (v : U32) : State :=
  { s with
    errCmd := s.errCmd && !v.getLsbD 3
    errHaz := s.errHaz && !v.getLsbD 4
    errNum := s.errNum && !v.getLsbD 5
    nbsChg := s.nbsChg && !v.getLsbD 6 }

/-! ## Output ports (30_encoding.md R70) -/

/-- `emit Char(c, t, d)` (00_scope.md R9, 44_symbol_decoder.md R166). -/
def State.emitChar (s : State) (c : Byte) (t : U32) (d : List U32) : State :=
  { s with events := s.events ++ [⟨c, t, d⟩] }

/-- `emit SetGain(g)` (00_scope.md R9). -/
def State.emitSetGain (s : State) (g : U32) : State := { s with setGains := s.setGains ++ [g] }

/-- `respond(v)` (00_scope.md R9). -/
def State.respond (s : State) (v : U32) : State := { s with responses := s.responses ++ [v] }

/-! ## Register accesses -/

/-- A mapped register's 32-bit image (40_commands.md R95). -/
def readReg (r : Reg) (s : State) : U32 :=
  match r with
  | .ctrl => ctrlImage s
  | .status => statusImage s
  | .coeff => s.coeff
  | .tfloor => s.tfloor
  | .react => s.react
  | .hold => s.hold
  | .sf10 => s.sf10
  | .nbmin => s.nbmin
  | .gain => s.gain
  | .mag => s.mag
  | .thr => s.thr
  | .loud => s.loud
  | .lcnt => s.lcnt
  | .q1 => s.q1
  | .q2 => s.q2
  | .scnt => s.scnt
  | .unit => s.unit
  | .wpm => s.wpm
  | .nbs => s.nbs
  | .highdur => s.highdur
  | .lowdur => s.lowdur
  | .highstart => s.highstart
  | .lowstart => s.lowstart
  | .lastrawt => s.lastrawt
  | .lastloudt => s.lastloudt
  | .code => codeImage s
  | .dur i => durImage s i.val

/-- `RegRead(a)` and the state after it: an unmapped index flags ERR_CMD and reads 0 (40_commands.md R95). -/
def regRead (a : Byte) (s : State) : U32 × State :=
  match regOfIndex a with
  | some r => (readReg r s, s)
  | none => (0, s.flag .cmd)

/-- A WR to COEFF (10_state.md R24): a NaN is rejected; a write with an open block also flags ERR_HAZ. -/
def writeCoeff (v : F32) (s : State) : State :=
  if isNaN v then s.flag .cmd
  else
    let s1 := if s.scnt ≠ 0 then s.flag .haz else s
    { s1 with coeff := fclamp coeffMin coeffMax v }

/-- The value a TFLOOR write stores (10_state.md R25): a negative value and -0.0 store +0.0. -/
def floorValue (v : F32) : F32 := if v.msb then posZero else v

/-- A WR to TFLOOR (10_state.md R25): a NaN or +inf is rejected; a stored write raises THR to the floor if needed. -/
def writeTfloor (v : F32) (s : State) : State :=
  if isNaN v || decide (v = posInf) then s.flag .cmd
  else
    let f := floorValue v
    { s with tfloor := f, thr := if fge s.thr f then s.thr else f }

/-- A WR to NBMIN (10_state.md R29): it raises NBS, with NBS_CHG, where NBS is below the new floor. -/
def writeNbmin (v : U32) (s : State) : State :=
  let m := clampU32 1 s.cfg.nbMax v
  if s.nbs < m then { s with nbmin := m, nbs := m, nbsChg := true } else { s with nbmin := m }

/-- A WR to GAIN (10_state.md R30, 45_gain_controller.md R186). -/
def writeGain (v : U32) (s : State) : State :=
  let g := clampU32 s.cfg.gainMin s.cfg.gainMax v
  { (s.emitSetGain g) with gain := g, lcnt := 0 }

/-- A WR to a mapped register (40_commands.md R94); the read-only ones ignore it (20_memory.md R57). -/
def writeReg (r : Reg) (v : U32) (s : State) : State :=
  match r with
  | .ctrl => s.writeCtrl v
  | .status => s.clearSticky v
  | .coeff => writeCoeff v s
  | .tfloor => writeTfloor v s
  | .react => { s with react := clampU32 1 255 v }
  | .hold => { s with hold := clampU32 0 s.cfg.holdMax v }
  | .sf10 => { s with sf10 := clampU32 10 100 v }
  | .nbmin => writeNbmin v s
  | .gain => writeGain v s
  | .mag | .thr | .loud | .lcnt | .q1 | .q2 | .scnt | .unit | .wpm | .nbs
  | .highdur | .lowdur | .highstart | .lowstart | .lastrawt | .lastloudt | .code | .dur _ => s

/-- `RegWrite(a, v)`: an unmapped index changes nothing and flags ERR_CMD (40_commands.md R94, 20_memory.md R57). -/
def regWrite (a : Byte) (v : U32) (s : State) : State :=
  match regOfIndex a with
  | some r => writeReg r v s
  | none => s.flag .cmd

end Sys2Proof.Machine
end

