-- ==== Sys2Proof/Machine/Gain.lean ====
section
/-! DEFINITION. gain_loop_controller (45_gain_controller.md). -/
namespace Sys2Proof.Machine

/-- The loudness average of MAG (45_gain_controller.md R181). -/
def loudnessAverage (s : State) : State :=
  let n := if s.lcnt < s.cfg.laN then s.lcnt + 1 else s.lcnt
  { s with lcnt := n, loud := fadd s.loud (fdiv (fsub s.mag s.loud) (fofU32 n)) }

/-- Recently loud (45_gain_controller.md R183). -/
def recentlyLoud (now : U32) (s : State) : Bool :=
  s.loudSeen && decide (elapsed now s.lastloudt < s.cfg.gRecent.toNat)

/-- The loudness is in one of the two loud bands (45_gain_controller.md R184). -/
def inLoudBand (s : State) : Bool := fge s.loud s.cfg.gT1 || fge s.loud s.cfg.gT2

/-- The gain the band asks for, before the clamp (45_gain_controller.md R184). -/
def bandTarget (now : U32) (s : State) : Int :=
  if fge s.loud s.cfg.gT1 then (s.gain.toNat : Int) - s.cfg.gD1
  else if fge s.loud s.cfg.gT2 then (s.gain.toNat : Int) - s.cfg.gD2
  else if fge s.loud s.cfg.gT3 then s.gain.toNat
  else if !recentlyLoud now s then
    (s.gain.toNat : Int) + (if flt s.loud s.cfg.gT4 then s.cfg.gU2 else s.cfg.gU1 : Nat)
  else s.gain.toNat

/-- LASTLOUDT and LOUD_SEEN in a loud band, even where the clamp cancels the change (45_gain_controller.md R184). -/
def markLoud (now : U32) (s : State) : State :=
  if inLoudBand s then { s with lastloudt := now, loudSeen := true } else s

/-- The band correction (45_gain_controller.md R184): only when settled (R182), at most one SetGain (R185). -/
def bandCorrection (now : U32) (s : State) : State :=
  if settled s then
    let g := clampInt s.cfg.gainMin s.cfg.gainMax (bandTarget now s)
    let s1 := markLoud now s
    if g ≠ s.gain then { (s1.emitSetGain g) with gain := g, lcnt := 0 } else s1
  else s

/-- `gain_loop(now)`, the last stage of every pass (45_gain_controller.md R180). -/
def gainLoop (now : U32) (s : State) : State := bandCorrection now (loudnessAverage s)

end Sys2Proof.Machine
end

