-- ==== Sys2Proof/Machine/Operands.lean ====
section
/-! DEFINITION. The fields of a command word (30_encoding.md R71) and operand assembly from them (R72, R73). -/
namespace Sys2Proof.Machine

/-- OP, bits 47:40. -/
def opField (w : CommandWord) : Byte := w.extractLsb' 40 8

/-- ADDR, bits 39:32. -/
def addrField (w : CommandWord) : Byte := w.extractLsb' 32 8

/-- DATA, bits 31:0. -/
def dataField (w : CommandWord) : U32 := w.extractLsb' 0 32

/-- The word of the three fields. -/
def commandWord (op addr : Byte) (data : U32) : CommandWord := op ++ addr ++ data

/-- SAMPLE's operand, DATA[15:0] (R72). -/
def sampleField (d : U32) : I16 := d.extractLsb' 0 16

/-- DATA of an assembled SAMPLE, `{0x0000, x[15:0]}` (R79). -/
def sampleData (x : I16) : U32 := 0#16 ++ x

/-- `xf = f32(x)`: the sample, two's complement, as a binary32, exact (41_goertzel.md R110). -/
def sampleValue (x : I16) : F32 := fofInt x.toInt

end Sys2Proof.Machine
end

