-- ==== Sys2Proof/Machine/Goertzel.lean ====
section
/-! DEFINITION. goertzel_filter, the single-bin DFT magnitude (41_goertzel.md). -/
namespace Sys2Proof.Machine

/-- `goertzel_step(x)`, one sample of the recursion (41_goertzel.md R110). -/
def goertzelStep (x : I16) (s : State) : State :=
  { s with
    q1 := fadd (fsub (fmul s.coeff s.q1) s.q2) (sampleValue x)
    q2 := s.q1
    scnt := sat32 (s.scnt.toNat + 1) }

/-- `m2`, the squared magnitude of the two accumulators (41_goertzel.md R112). -/
def magSquared (q1 q2 c : F32) : F32 := fsub (fadd (fmul q1 q1) (fmul q2 q2)) (fmul (fmul q1 q2) c)

/-- MAG of a squared magnitude: never negative, never NaN (41_goertzel.md R112). -/
def magOf (m2 : F32) : F32 :=
  if isNaN m2 then posZero
  else if m2 = posInf then posInf
  else if m2 = negInf then posZero
  else if fle m2 posZero then posZero
  else fsqrt m2

/-- `goertzel_finish()`, the first stage of BLKEND (41_goertzel.md R112): MAG, ERR_NUM in the three non-finite cases,
and the next block starts from rest. -/
def goertzelFinish (s : State) : State :=
  let m2 := magSquared s.q1 s.q2 s.coeff
  let s1 := if isFinite m2 then s else s.flag .num
  { s1 with mag := magOf m2, q1 := posZero, q2 := posZero, scnt := 0 }

end Sys2Proof.Machine
end

