-- ==== Sys2Proof/Machine/Threshold.lean ====
section
/-! DEFINITION. adaptive_threshold_comparator and edge_debouncer (42_threshold_debounce.md). -/
namespace Sys2Proof.Machine

/-- The moving average of `threshold_update()`: it moves only where the magnitude is above the floor (R120). -/
def thresholdAverage (s : State) : F32 :=
  if fgt s.mag s.tfloor then fadd s.thr (fdiv (fsub s.mag s.thr) (fofU32 s.react)) else s.thr

/-- `threshold_update()`, its first part (42_threshold_debounce.md R120): the threshold never is below the floor. -/
def thresholdUpdate (s : State) : State :=
  let t := thresholdAverage s
  { s with thr := if fge t s.tfloor then t else s.tfloor }

/-- The comparator, the end of the same stage (42_threshold_debounce.md R121). -/
def compareThreshold (s : State) : State := { s with raw := toneOf (fgt s.mag (fmul frac s.thr)) }

/-- `debounce(now)`, first part: the raw transition's timestamp (42_threshold_debounce.md R123). -/
def rawTransition (now : U32) (s : State) : State :=
  if s.raw ≠ s.prevRaw then { s with lastrawt := now, prevRaw := s.raw } else s

/-- `debounce(now)`, second part: commit (42_threshold_debounce.md R124). -/
def commitFilter (now : U32) (s : State) : State :=
  if s.raw ≠ s.filt ∧ s.hold.toNat ≤ elapsed now s.lastrawt then { s with filt := s.raw } else s

/-- `debounce(now)`, the third stage of BLKEND (42_threshold_debounce.md R123, R124). -/
def debounce (now : U32) (s : State) : State := commitFilter now (rawTransition now s)

end Sys2Proof.Machine
end

