-- ==== Sys2Proof/Machine/Decoder.lean ====
section
/-! DEFINITION. morse_symbol_accumulator_and_lut_decoder (44_symbol_decoder.md). -/
namespace Sys2Proof.Machine

/-- `append(sym, h)` (44_symbol_decoder.md R160): the symbol that finds the buffer full clears it and is discarded (R161). -/
def appendSymbol (sym : Symbol) (h : U32) (s : State) : State :=
  if s.code.length = codeCap then { s with code := [], dur := [] }
  else { s with code := s.code ++ [sym], dur := s.dur ++ [h] }

/-- Exact lookup of the key (LEN, SYM) in the CharacterTable (44_symbol_decoder.md R164, R167). -/
def lutLookup (t : List LutEntry) (len sym : Nat) : Option Byte :=
  (t.find? fun e => decide (e.len = len) && decide (e.sym = sym)).map LutEntry.code

/-- The character the CodeBuffer spells; an empty buffer is not looked up (44_symbol_decoder.md R163). -/
def decodeBuffer (s : State) : Option Byte :=
  if s.code.length = 0 then none else lutLookup s.cfg.charLut s.code.length (symBits s.code)

/-- `flush()` in the pass of timestamp `now` (44_symbol_decoder.md R163). -/
def flush (now : U32) (s : State) : State :=
  let s1 := match decodeBuffer s with
    | some c => { (s.emitChar c now (if s.diag then s.dur else [])) with lastSpace := false }
    | none => s
  { s1 with code := [], dur := [] }

/-- `space()` in the pass of timestamp `now` (44_symbol_decoder.md R165). -/
def space (now : U32) (s : State) : State :=
  if s.lastSpace then s else { (s.emitChar 0x20 now []) with lastSpace := true }

end Sys2Proof.Machine
end

