-- ==== Sys2Proof/Machine/Timing.lean ====
section
/-! DEFINITION. run_duration_timer_and_classifier with the speed estimate (43_timing_classifier.md). Products and
comparisons are on unbounded integers, so none wraps. -/
namespace Sys2Proof.Machine

/-! ## Unit duration -/

/-- The unit duration after a mark of `h`, the two tests one after the other, before saturation (R133). -/
def unitAfter (u h : Nat) : Nat :=
  let u1 := if h < 2 * u ∨ u = 0 then (h + 2 * u) / 3 else u
  if 5 * u1 < h then h + u1 else u1

/-- `update_unit(h)` (43_timing_classifier.md R133, R146). -/
def updateUnit (h : U32) (s : State) : State :=
  { s with unit := sat32 (unitAfter s.unit.toNat h.toNat) }

/-! ## Speed estimate -/

/-- `cand(w)`, the candidate block size (43_timing_classifier.md R144). -/
def candidateSize (nbmin nbMax w : U32) : U32 :=
  clampInt nbmin nbMax (floorDiv (1290 - 20 * (w.toNat : Int)) 9)

/-- `nbs_update()`: committed when more than the hysteresis away (43_timing_classifier.md R145). -/
def nbsUpdate (s : State) : State :=
  let c := candidateSize s.nbmin s.cfg.nbMax s.wpm
  if nbHyst < ((c.toNat : Int) - (s.nbs.toNat : Int)).natAbs then { s with nbs := c, nbsChg := true } else s

/-- `um`: a dot's duration, or a third of a dash's (43_timing_classifier.md R140). -/
def unitMillis (sym : Symbol) (h : U32) : Nat :=
  match sym with
  | .dot => h.toNat
  | .dash => h.toNat / 3

/-- The WPM estimate after a unit of `um` ms (43_timing_classifier.md R140). -/
def wpmAfter (wpm um : Nat) : Nat := (wpm + 1200 / um) / 2

/-- `speed_update(sym, h)`: skipped for `um` = 0 (43_timing_classifier.md R140). -/
def speedUpdate (sym : Symbol) (h : U32) (s : State) : State :=
  let um := unitMillis sym h
  if 1 ≤ um then nbsUpdate { s with wpm := BitVec.ofNat 32 (wpmAfter s.wpm.toNat um) } else s

/-! ## Marks -/

/-- The symbol of a mark of `h` at the unit `u`; none is noise (43_timing_classifier.md R134). -/
def markSymbol (u h : Nat) : Option Symbol :=
  if 3 * u < 5 * h ∧ h < 2 * u then some .dot
  else if 2 * u ≤ h ∧ h < 6 * u then some .dash
  else none

/-- `classify_mark(h)` (43_timing_classifier.md R134). -/
def classifyMark (h : U32) (s : State) : State :=
  match markSymbol s.unit.toNat h.toNat with
  | some sym => speedUpdate sym h (appendSymbol sym h s)
  | none => s

/-! ## Gaps -/

/-- lacktime in tenths (43_timing_classifier.md R135). -/
def lacktime10 (wpm : Nat) : Nat := if wpmT2 < wpm then 15 else if wpmT1 < wpm then 12 else 10

/-- `word_boundary()` (43_timing_classifier.md R137). -/
def wordBoundary (now : U32) (s : State) : State := space now (flush now s)

/-- `letter_boundary()` (43_timing_classifier.md R138). -/
def letterBoundary (now : U32) (s : State) : State := flush now s

/-- A gap of `l` is a word boundary: the test made first (43_timing_classifier.md R136). -/
def isWordGap (sf10 u l10 l : Nat) : Bool := decide (sf10 * u * l10 ≤ 100 * l)

/-- A gap of `l` lies in the letter window (43_timing_classifier.md R136). -/
def isLetterGap (u l10 l : Nat) : Bool := decide (2 * u * l10 ≤ 10 * l) && decide (10 * l < 5 * u * l10)

/-- `classify_gap(l)` in the pass of timestamp `now` (43_timing_classifier.md R136). -/
def classifyGap (now : U32) (l : U32) (s : State) : State :=
  let u := s.unit.toNat
  let l10 := lacktime10 s.wpm.toNat
  if isWordGap s.sf10.toNat u l10 l.toNat then wordBoundary now s
  else if isLetterGap u l10 l.toNat then letterBoundary now s
  else s

/-! ## Edges and the stall guard -/

/-- The low→high edge: the low run ends (43_timing_classifier.md R130). -/
def risingEdge (now : U32) (s : State) : State :=
  let l := now - s.lowstart
  classifyGap now l { s with stallDone := false, lowdur := l, highstart := now }

/-- The high→low edge: the mark ends; the unit is updated before the mark is classified (43_timing_classifier.md R130). -/
def fallingEdge (now : U32) (s : State) : State :=
  let h := now - s.highstart
  classifyMark h (updateUnit h { s with stallDone := false, highdur := h, lowstart := now })

/-- The condition of the stall guard (43_timing_classifier.md R139). -/
def stalled (now : U32) (s : State) : Bool :=
  decide (s.filt = .absent) && !s.stallDone && decide (6 * s.highdur.toNat < elapsed now s.lowstart)

/-- `stall_guard(now)` (43_timing_classifier.md R139). -/
def stallGuard (now : U32) (s : State) : State :=
  if stalled now s then { (flush now s) with stallDone := true } else s

/-- The edge processing of `classify(now)`: PREV_FILT takes FILT, and an edge is measured (43_timing_classifier.md R130). -/
def processEdge (now : U32) (s : State) : State :=
  let s1 := { s with prevFilt := s.filt }
  if s.filt = s.prevFilt then s1
  else match s.filt with
    | .present => risingEdge now s1
    | .absent => fallingEdge now s1

/-- `classify(now)`, the fourth stage of BLKEND when CTRL.SCAN = 0 (43_timing_classifier.md R130). -/
def classify (now : U32) (s : State) : State := stallGuard now (processEdge now s)

end Sys2Proof.Machine
end

