-- ==== Sys2Proof/Machine/DataPath.lean ====
section
/-! DEFINITION. The data-path commands SAMPLE and BLKEND (40_commands.md R92, R93). -/
namespace Sys2Proof.Machine

/-- The stages of a pass before the classifier: magnitude, threshold, comparator, debouncer. They run whatever CTRL.SCAN
is (42_threshold_debounce.md R125). -/
def frontEnd (now : U32) (s : State) : State :=
  debounce now (compareThreshold (thresholdUpdate (goertzelFinish s)))

/-- The fourth stage: the classifier, or, while scanning, the edge consumed unprocessed (40_commands.md R93,
43_timing_classifier.md R131). -/
def classifyUnlessScanning (now : U32) (s : State) : State :=
  if s.scan then { s with prevFilt := s.filt } else classify now s

/-- One pipeline pass at time `now` (40_commands.md R93). -/
def pipelinePass (now : U32) (s : State) : State := gainLoop now (classifyUnlessScanning now (frontEnd now s))

/-- SAMPLE (40_commands.md R92). -/
def execSample (x : I16) (s : State) : Host.Outcome State Fault Refusal := .next (goertzelStep x s)

/-- BLKEND (40_commands.md R93). -/
def execBlkend (now : U32) (s : State) : Host.Outcome State Fault Refusal := .next (pipelinePass now s)

end Sys2Proof.Machine
end

