-- ==== Sys2Proof/Machine/RegisterAccess.lean ====
section
/-! DEFINITION. The register commands WR and RD (40_commands.md R94, R95). -/
namespace Sys2Proof.Machine

/-- WR (40_commands.md R94). -/
def execWr (a : Byte) (v : U32) (s : State) : Host.Outcome State Fault Refusal := .next (regWrite a v s)

/-- RD: one response, the state as `RegRead` leaves it (40_commands.md R95). -/
def execRd (a : Byte) (s : State) : Host.Outcome State Fault Refusal :=
  .next ((regRead a s).2.respond (regRead a s).1)

end Sys2Proof.Machine
end

