-- ==== Sys2Proof/Machine/System.lean ====
section
/-! DEFINITION. The system commands NOP and TRESET (40_commands.md R91, R96, R98). -/
namespace Sys2Proof.Machine

/-- The timing record reset at `now` (40_commands.md R96). -/
def timingReset (now : U32) (s : State) : State :=
  { s with
    highstart := now
    lowstart := now
    highdur := 0
    lowdur := 0
    unit := 0
    prevFilt := s.filt
    stallDone := false }

/-- NOP: nothing (40_commands.md R91). -/
def execNop (s : State) : Host.Outcome State Fault Refusal := .next s

/-- TRESET (40_commands.md R96). -/
def execTreset (now : U32) (s : State) : Host.Outcome State Fault Refusal := .next (timingReset now s)

end Sys2Proof.Machine
end

