-- ==== Sys2Proof/Syntax.lean ====
section
/-! DEFINITION. The six host commands, one constructor per row of spec/opcode_table.json. -/
namespace Sys2Proof

/-- A host command with its operands (30_encoding.md R72 to R74). The fields a command ignores (R76)
are no operands: they select the same command with the same effect. -/
inductive Instr where
  /-- NOP (40_commands.md R91). -/
  | nop
  /-- SAMPLE: push the sample `x` = DATA[15:0] (40_commands.md R92). -/
  | sample (x : I16)
  /-- BLKEND: end the block at time `now` = DATA and run one pipeline pass (40_commands.md R93). -/
  | blkend (now : U32)
  /-- WR: write `v` = DATA to the register of index `a` = ADDR (40_commands.md R94). -/
  | wr (a : Byte) (v : U32)
  /-- RD: read the register of index `a` = ADDR (40_commands.md R95). -/
  | rd (a : Byte)
  /-- TRESET: reset the timing record at time `now` = DATA (40_commands.md R96). -/
  | treset (now : U32)
  deriving DecidableEq, Repr

end Sys2Proof
end

