-- ==== Sys2Proof/Machine/Dispatch.lean ====
section
/-! DEFINITION. The dispatch of the six commands to their meanings (40_commands.md R90). -/
namespace Sys2Proof.Machine

/-- The effect of one command on the state (40_commands.md R90 to R96). -/
def exec (i : Instr) (s : State) : Host.Outcome State Fault Refusal :=
  match i with
  | .nop => Sys2Proof.Machine.execNop s
  | .sample x => Sys2Proof.Machine.execSample x s
  | .blkend now => Sys2Proof.Machine.execBlkend now s
  | .wr a v => Sys2Proof.Machine.execWr a v s
  | .rd a => Sys2Proof.Machine.execRd a s
  | .treset now => Sys2Proof.Machine.execTreset now s

end Sys2Proof.Machine
end

