-- ==== Sys2Proof/Decode.lean ====
section
/-! DEFINITION. The decoder, total on command words and on bytes, and after it the encoder (30_encoding.md R71 to R78). -/
namespace Sys2Proof

/-- Why a word or a byte stream is no command. -/
inductive Reject where
  /-- OP is 0x06 to 0xFF (30_encoding.md R75). -/
  | illegalOpcode (op : Byte)
  /-- Fewer than the six bytes of a command word are left (20_memory.md R53, R54; assumption 13). -/
  | truncated (bytes : Nat)
  deriving DecidableEq, Repr

/-- The command of a word: OP alone selects it (30_encoding.md R74), ignored fields are not looked at (R76). -/
def decode (w : CommandWord) : Except Reject Instr :=
  let d := Machine.dataField w
  let a := Machine.addrField w
  match (Machine.opField w).toNat with
  | 0 => .ok .nop
  | 1 => .ok (.sample (Machine.sampleField d))
  | 2 => .ok (.blkend d)
  | 3 => .ok (.wr a d)
  | 4 => .ok (.rd a)
  | 5 => .ok (.treset d)
  | _ => .error (.illegalOpcode (Machine.opField w))

/-- The word of six bytes in transport order: byte k holds bits 8k+7 to 8k (20_memory.md R53). -/
def wordOfBytes (b0 b1 b2 b3 b4 b5 : Byte) : CommandWord := b5 ++ b4 ++ b3 ++ b2 ++ b1 ++ b0

/-- Byte `k` of a word in transport order (20_memory.md R53). -/
def byteOfWord (w : CommandWord) (k : Nat) : Byte := w.extractLsb' (8 * k) 8

/-- The six bytes of a word in transport order, byte 0 first (20_memory.md R53). -/
def bytesOfWord (w : CommandWord) : List Byte :=
  [byteOfWord w 0, byteOfWord w 1, byteOfWord w 2, byteOfWord w 3, byteOfWord w 4, byteOfWord w 5]

/-- The first command of a byte stream and the bytes after it. Every command is six bytes (30_encoding.md R78). -/
def decodeBytes : List Byte → Except Reject (Instr × List Byte)
  | b0 :: b1 :: b2 :: b3 :: b4 :: b5 :: rest =>
    match decode (wordOfBytes b0 b1 b2 b3 b4 b5) with
    | .ok i => .ok (i, rest)
    | .error e => .error e
  | bs => .error (.truncated bs.length)

/-- The opcode of a command (30_encoding.md R74). -/
def opcode : Instr → Byte
  | .nop => 0x00
  | .sample _ => 0x01
  | .blkend _ => 0x02
  | .wr _ _ => 0x03
  | .rd _ => 0x04
  | .treset _ => 0x05

/-- The word the assembler writes for a command, zero in the ignored fields (30_encoding.md R76, R79). -/
def encode (i : Instr) : CommandWord :=
  match i with
  | .nop => Machine.commandWord (opcode i) 0 0
  | .sample x => Machine.commandWord (opcode i) 0 (Machine.sampleData x)
  | .blkend now => Machine.commandWord (opcode i) 0 now
  | .wr a v => Machine.commandWord (opcode i) a v
  | .rd a => Machine.commandWord (opcode i) a 0
  | .treset now => Machine.commandWord (opcode i) 0 now

/-- The bytes of a command in transport order (20_memory.md R53). -/
def encodeBytes (i : Instr) : List Byte := bytesOfWord (encode i)

/-- The bits of a command's word that the block looks at (30_encoding.md R74, R76): OP, and the operands' fields. -/
def usedBits : Instr → CommandWord
  | .nop => 0xFF0000000000
  | .sample _ => 0xFF000000FFFF
  | .blkend _ => 0xFF00FFFFFFFF
  | .wr _ _ => 0xFFFFFFFFFFFF
  | .rd _ => 0xFFFF00000000
  | .treset _ => 0xFF00FFFFFFFF

/-- The command whose `nbits` bits are `w`, numbered as spec/opcode_table.json numbers them, every bit above them 0: its
bytes in transport order, given to the decoder. -/
def decodeTableWord (nbits w : Nat) : Option Instr :=
  match decodeBytes (bytesOfWord (BitVec.ofNat 48 (w % 2 ^ nbits))) with
  | .ok (i, _) => some i
  | .error _ => none

end Sys2Proof
end

