-- ==== Sys2Proof/Machine/Port.lean ====
section
/-! DEFINITION. The block's inputs: taking the next command word, the reset input, and a word that is no command. -/
namespace Sys2Proof.Machine

/-- What a step finds at the inputs. -/
inductive Taken where
  /-- No command is executed; this is the state after the step. -/
  | nothing (s : State)
  /-- The word `w` has been taken from the command port; it is executed in this state. -/
  | command (w : CommandWord) (s : State)
  deriving DecidableEq, Repr

/-- The reset input takes the level `level` (70_reset_and_hazards.md R220): asserted or released, every register, field,
hidden bit and buffer holds its reset value. A new run begins, so the record of the outputs starts empty (R235,
assumption 5); the model's fault mark is never cleared (60_exceptions.md R209). DESIGN CHOICE (assumption 5): all this
happens at every input of a level, also where the level is the one `rst` has already. -/
def State.resetInput (s : State) (level : Bool) : State :=
  { State.resetWith s.cfg with rst := level, port := s.port, faultMark := s.faultMark }

/-- The next input, if there is one. With no input the block holds its state (60_exceptions.md R216); while `rst` is
asserted it accepts no command (70_reset_and_hazards.md R220, assumption 4). -/
def takeInput (s : State) : Taken :=
  match s.port with
  | [] => .nothing s
  | .rst level :: rest => .nothing ({ s with port := rest }.resetInput level)
  | .command w :: rest =>
    if s.rst then .nothing { s with port := rest } else .command w { s with port := rest }

/-- A word that is no command: `flag ERR_CMD` and nothing else (30_encoding.md R75, 40_commands.md R90). -/
def rejectWord (_e : Reject) (s : State) : State := s.flag .cmd

end Sys2Proof.Machine
end

