-- ==== Sys2Proof/Machine/Step.lean ====
section
/-! DEFINITION. One step of the block: take the next input and, if it is a command, execute it to completion. -/
namespace Sys2Proof.Machine

/-- A command word taken from the port (40_commands.md R90): a legal one is executed, any other flags ERR_CMD. -/
def runWord (w : CommandWord) (s : State) : Host.Outcome State Fault Refusal :=
  match decode w with
  | .ok i => exec i s
  | .error e => .next (rejectWord e s)

/-- One step (20_memory.md R58, 40_commands.md R90). -/
def step (s : State) : Host.Outcome State Fault Refusal :=
  match takeInput s with
  | .nothing t => .next t
  | .command w t => runWord w t

/-- `s` with the command whose `nbits` bits are `w` presented at the command port before every other input, the reset
input released: the next step takes and runs exactly it. It stands for the host's transaction (assumption 3). -/
def State.withFetchWord (s : State) (nbits w : Nat) : State :=
  { s with rst := false, port := .command (BitVec.ofNat 48 (w % 2 ^ nbits)) :: s.port }

end Sys2Proof.Machine
end

