-- ==== Sys2Proof/WellFormed.lean ====
section
/-! DEFINITION. Which operands a command may have (30_encoding.md R72, R73), and the source lines of the assembler with the
ranges their operands must lie in (R79 to R81). -/
namespace Sys2Proof

/-- The operand ranges of R72 and R73: an i16 sample, a u32 timestamp or value, a register index 0..255. The types of
Instr's operands hold exactly these ranges, so every Instr is well-formed (Laws.wellFormed_all); the checks that can fail
are those of the assembler's source lines below. -/
def Instr.wellFormed : Instr → Bool
  | .nop => true
  | .sample x => decide (-32768 ≤ x.toInt) && decide (x.toInt ≤ 32767)
  | .blkend now => decide (now.toNat < 2 ^ 32)
  | .wr a v => decide (a.toNat ≤ 255) && decide (v.toNat < 2 ^ 32)
  | .rd a => decide (a.toNat ≤ 255)
  | .treset now => decide (now.toNat < 2 ^ 32)

/-- A float literal (R79): a decimal `digits / 10^scale`, or an infinity (assumption 12). -/
inductive AsmFloat where
  | decimal (neg : Bool) (digits scale : Nat)
  | inf (neg : Bool)
  deriving DecidableEq, Repr

/-- `<value>` of R79: a u32 literal or a float literal. -/
inductive AsmValue where
  | int (n : Nat)
  | float (x : AsmFloat)
  deriving DecidableEq, Repr

/-- A register operand (R80): a name, or a raw index `r<n>`. -/
inductive AsmReg where
  | named (r : Machine.Reg)
  | raw (n : Nat)
  deriving DecidableEq, Repr

/-- A source line: the six commands (R79) and the five pseudo-instructions (R81). -/
inductive AsmLine where
  | nop
  | sample (x : Int)
  | blkend (now : Nat)
  | wr (r : AsmReg) (v : AsmValue)
  | rd (r : AsmReg)
  | treset (now : Nat)
  | block (now : Nat) (xs : List Int)
  | tone (now : Nat) (a : Int)
  | silent (now : Nat)
  | clr (mask : Nat)
  | wrf (r : AsmReg) (x : AsmFloat)
  deriving DecidableEq, Repr

/-- `<int16>` lies in -32768..32767 (R79). -/
def int16Ok (x : Int) : Bool := decide (-32768 ≤ x) && decide (x ≤ 32767)

/-- `<u32>` lies in 0..2^32 - 1 (R79). -/
def u32Ok (n : Nat) : Bool := decide (n < 2 ^ 32)

/-- A raw index lies in 0..255 (R80). -/
def regOk : AsmReg → Bool
  | .named _ => true
  | .raw n => decide (n ≤ 255)

/-- A `<value>`'s integer is a u32 (R79). -/
def valueOk : AsmValue → Bool
  | .int n => u32Ok n
  | .float _ => true

/-- Every operand of a source line lies in its range, and a block has a first sample (R79 to R81). -/
def AsmLine.wellFormed : AsmLine → Bool
  | .nop => true
  | .sample x => int16Ok x
  | .blkend now => u32Ok now
  | .wr r v => regOk r && valueOk v
  | .rd r => regOk r
  | .treset now => u32Ok now
  | .block now xs => u32Ok now && !xs.isEmpty && xs.all int16Ok
  | .tone now a => u32Ok now && int16Ok a
  | .silent now => u32Ok now
  | .clr mask => u32Ok mask
  | .wrf r _ => regOk r

end Sys2Proof
end

