-- ==== Sys2Proof/Machine/Assembler.lean ====
section
/-! DEFINITION. The assembler of 30_encoding.md R79 to R81: text to source lines, source lines to commands. What R79 leaves
open of the text is assumption 12. -/
namespace Sys2Proof.Machine

/-! ## Source lines to commands -/

/-- The binary32 nearest a decimal literal, ties to even (R79). DESIGN CHOICE (assumption 12): a literal with a minus sign
whose nearest value is zero gives -0.0, and one beyond the largest finite value gives the infinity. -/
def floatLiteral : AsmFloat → F32
  | .decimal neg digits scale => fpack neg (roundMag (digits * 2 ^ 149) (10 ^ scale))
  | .inf neg => fpack neg infMag

/-- The index a register operand names (R80). -/
def operandIndex : AsmReg → Byte
  | .named r => regIndex r
  | .raw n => BitVec.ofNat 8 n

/-- The 32-bit value of a `<value>` (R79). -/
def operandValue : AsmValue → U32
  | .int n => BitVec.ofNat 32 n
  | .float x => floatLiteral x

/-- The commands a source line stands for (R79, R81). -/
def expandLine : AsmLine → List Instr
  | .nop => [.nop]
  | .sample x => [.sample (BitVec.ofInt 16 x)]
  | .blkend now => [.blkend (BitVec.ofNat 32 now)]
  | .wr r v => [.wr (operandIndex r) (operandValue v)]
  | .rd r => [.rd (operandIndex r)]
  | .treset now => [.treset (BitVec.ofNat 32 now)]
  | .block now xs => xs.map (fun x => .sample (BitVec.ofInt 16 x)) ++ [.blkend (BitVec.ofNat 32 now)]
  | .tone now a => [.sample (BitVec.ofInt 16 a), .blkend (BitVec.ofNat 32 now)]
  | .silent now => [.sample 0, .blkend (BitVec.ofNat 32 now)]
  | .clr mask => [.wr (regIndex .status) (BitVec.ofNat 32 mask)]
  | .wrf r x => [.wr (operandIndex r) (floatLiteral x)]

/-- The commands of a well-formed source line; an ill-formed one is refused (R79). -/
def assembleLine (l : AsmLine) : Option (List Instr) :=
  if l.wellFormed then some (expandLine l) else none

/-! ## Text to source lines -/

/-- Blanks around tokens (assumption 12). -/
def isBlank (c : Char) : Bool := c == ' ' || c == '\t' || c == '\r'

/-- A list cut at every character that satisfies `p`. -/
def cutAt (p : Char → Bool) : List Char → List (List Char)
  | [] => [[]]
  | c :: cs =>
    match cutAt p cs with
    | [] => [[c]]
    | w :: ws => if p c then [] :: w :: ws else (c :: w) :: ws

/-- A token without the blanks around it. -/
def trimBlanks (cs : List Char) : List Char :=
  ((cs.dropWhile isBlank).reverse.dropWhile isBlank).reverse

/-- The value of a digit in a base; letters are in lower case here. -/
def digitValue (base : Nat) (c : Char) : Option Nat :=
  let v := if '0'.toNat ≤ c.toNat ∧ c.toNat ≤ '9'.toNat then c.toNat - '0'.toNat
    else if 'a'.toNat ≤ c.toNat ∧ c.toNat ≤ 'f'.toNat then c.toNat - 'a'.toNat + 10
    else base
  if v < base then some v else none

/-- The digits after the value read so far. -/
def digitsFrom (base : Nat) : Nat → List Char → Option Nat
  | n, [] => some n
  | n, c :: cs =>
    match digitValue base c with
    | some d => digitsFrom base (n * base + d) cs
    | none => none

/-- A non-empty run of digits. -/
def parseDigits (base : Nat) (cs : List Char) : Option Nat :=
  if cs.isEmpty then none else digitsFrom base 0 cs

/-- A decimal or hexadecimal literal (R79). -/
def parseNat : List Char → Option Nat
  | '0' :: 'x' :: cs => parseDigits 16 cs
  | cs => parseDigits 10 cs

/-- An `<int16>` literal: a decimal integer with an optional minus sign, or hexadecimal (R79). -/
def parseInt : List Char → Option Int
  | '-' :: cs => (parseDigits 10 cs).map fun n => -(n : Int)
  | cs => (parseNat cs).map fun n => (n : Int)

/-- The magnitude of a decimal: digits, and digits after a point (R79). DESIGN CHOICE (assumption 12): the digits before the
point may be missing, those after it may not; `inf` is read too. -/
def parseMagnitude (neg : Bool) (cs : List Char) : Option AsmFloat :=
  if cs = ['i', 'n', 'f'] then some (.inf neg)
  else match cutAt (· == '.') cs with
    | [a] => (parseDigits 10 a).map fun n => .decimal neg n 0
    | [a, b] =>
      if b.isEmpty then none else (parseDigits 10 (a ++ b)).map fun n => .decimal neg n b.length
    | _ => none

/-- `<decimal>` (R79). -/
def parseFloat : List Char → Option AsmFloat
  | '-' :: cs => parseMagnitude true cs
  | cs => parseMagnitude false cs

/-- `<value>`: a u32 or `f<decimal>` (R79). -/
def parseValue : List Char → Option AsmValue
  | 'f' :: cs => (parseFloat cs).map .float
  | cs => (parseNat cs).map .int

/-- A register name, or `r<n>` (R80). DESIGN CHOICE (assumption 12): names are compared in lower case, and `n` is decimal. -/
def parseReg (cs : List Char) : Option AsmReg :=
  match regTable.find? fun r => (regName r).toList == cs with
  | some r => some (.named r)
  | none =>
    match cs with
    | 'r' :: ds => (parseDigits 10 ds).map .raw
    | _ => none

/-- All the values, or none if one is missing. -/
def allSome : List (Option Int) → Option (List Int)
  | [] => some []
  | none :: _ => none
  | some x :: xs => (allSome xs).map (x :: ·)

/-- The source line of a mnemonic and its operands, in lower case (R79, R81). DESIGN CHOICE (assumption 12): the mask of
`clr` is a u32 literal, never a float literal. -/
def parseCommand (mnemonic : List Char) (ops : List (List Char)) : Option AsmLine :=
  match String.ofList mnemonic, ops with
  | "nop", [] => some .nop
  | "sample", [x] => (parseInt x).map .sample
  | "blkend", [t] => (parseNat t).map .blkend
  | "wr", [r, v] => (parseReg r).bind fun r => (parseValue v).map (.wr r ·)
  | "rd", [r] => (parseReg r).map .rd
  | "treset", [t] => (parseNat t).map .treset
  | "block", t :: xs => (parseNat t).bind fun t => (allSome (xs.map parseInt)).map (.block t ·)
  | "tone", [t, a] => (parseNat t).bind fun t => (parseInt a).map (.tone t ·)
  | "silent", [t] => (parseNat t).map .silent
  | "clr", [m] => (parseNat m).map .clr
  | "wrf", [r, x] => (parseReg r).bind fun r => (parseFloat x).map (.wrf r ·)
  | _, _ => none

/-- One line of text: `;` starts a comment, mnemonics are case-insensitive, operands are separated by commas (R79). DESIGN
CHOICE (assumption 12): the whole line is read without regard to case. The outer none is an error, the inner one a line
without a command. -/
def parseLine (text : List Char) : Option (Option AsmLine) :=
  let body := trimBlanks ((text.takeWhile (· != ';')).map Char.toLower)
  if body.isEmpty then some none
  else
    let rest := trimBlanks (body.dropWhile fun c => !isBlank c)
    let ops := if rest.isEmpty then [] else (cutAt (· == ',') rest).map trimBlanks
    (parseCommand (body.takeWhile fun c => !isBlank c) ops).map some

/-- The commands of one line of text; none where it is no line of the syntax or an operand is out of range. -/
def assembleText (text : List Char) : Option (List Instr) :=
  match parseLine text with
  | none => none
  | some none => some []
  | some (some l) => assembleLine l

/-- The commands of a program, one command per line (R79). -/
def assembleLines : List (List Char) → Option (List Instr)
  | [] => some []
  | l :: ls => (assembleText l).bind fun is => (assembleLines ls).map (is ++ ·)

/-- The commands of a program text. -/
def assembleProgram (text : List Char) : Option (List Instr) := assembleLines (cutAt (· == '\n') text)

end Sys2Proof.Machine
end

