-- ==== Sys2Proof/Safety.lean ====
section
/-! DEFINITION. What counts as a safe run: one whose fault mark is clear (60_exceptions.md R209), and one whose host keeps
its duties (70_reset_and_hazards.md R224 to R230). The block enforces none of the duties; these are predicates on a
command sequence, read as assumption 14 says. -/
namespace Sys2Proof.Safety

open Sys2Proof.Machine

/-- No error bit has been set in the run: the premise R209 asks of every claim about the source's behaviour. -/
def unmarked (s : State) : Bool := !s.faultMark

/-- The state after a command; no command stops, as Fault has no constructor and no arm refuses. -/
def after (i : Instr) (s : State) : State :=
  match exec i s with
  | .next t => t
  | .fault _ => s
  | .refused _ => s

/-- The state after a sequence of commands (70_reset_and_hazards.md R235). -/
def afterAll : List Instr → State → State
  | [], s => s
  | i :: is, s => afterAll is (after i s)

/-! ## Invariants of every state a step reaches -/

/-- The invariants of 10_state.md R42, with those of R31, R34 and 41_goertzel.md R115 and the mark of 60_exceptions.md
R209. `params` rules out parameters that R6 and R42 exclude. -/
structure RegistersInRange (s : State) : Prop where
  /-- The parameters are legal (assumption 10). -/
  params : paramsOk s.cfg = true
  /-- "threshold ≥ thresholdFloor always": a NaN threshold is excluded too. -/
  threshold : fge s.thr s.tfloor = true
  /-- "length never exceeds capacity". -/
  codeLength : s.code.length ≤ 7
  /-- The duration buffer's length equals LEN. -/
  durLength : s.dur.length = s.code.length
  react : 1 ≤ s.react.toNat ∧ s.react.toNat ≤ 255
  hold : s.hold.toNat ≤ s.cfg.holdMax.toNat
  sf10 : 10 ≤ s.sf10.toNat ∧ s.sf10.toNat ≤ 100
  nbmin : 1 ≤ s.nbmin.toNat ∧ s.nbmin.toNat ≤ s.cfg.nbMax.toNat
  nbs : s.nbmin.toNat ≤ s.nbs.toNat ∧ s.nbs.toNat ≤ s.cfg.nbMax.toNat
  gain : s.cfg.gainMin.toNat ≤ s.gain.toNat ∧ s.gain.toNat ≤ s.cfg.gainMax.toNat
  lcnt : s.lcnt.toNat ≤ s.cfg.laN.toNat
  coeff : isFinite s.coeff = true ∧ fle coeffMin s.coeff = true ∧ fle s.coeff coeffMax = true
  tfloor : isFinite s.tfloor = true ∧ s.tfloor.msb = false
  /-- R34. -/
  wpm : s.wpm.toNat ≤ 1200
  /-- MAG is never negative and never NaN (41_goertzel.md R115). -/
  mag : isNaN s.mag = false ∧ s.mag.msb = false
  /-- A block without a sample is at rest (41_goertzel.md R112, R113). -/
  atRest : s.scnt = 0 → s.q1 = posZero ∧ s.q2 = posZero
  /-- An error bit that stands has set the fault mark (60_exceptions.md R209). -/
  marked : s.errCmd = true ∨ s.errHaz = true ∨ s.errNum = true → s.faultMark = true

/-- No two spaces in a row (44_symbol_decoder.md R165). -/
def noAdjacentSpaces : List CharEvent → Bool
  | a :: b :: rest => !(decide (a.code = 0x20) && decide (b.code = 0x20)) && noAdjacentSpaces (b :: rest)
  | _ => true

/-- What the outputs emitted since reset say of the state: LAST_SPACE (44_symbol_decoder.md R165) and GAIN
(45_gain_controller.md R185). -/
structure OutputsConsistent (s : State) : Prop where
  /-- No entry of CHAR_LUT is a space (44_symbol_decoder.md R164). -/
  lutNoSpace : ∀ e ∈ s.cfg.charLut, e.code ≠ 0x20
  gainRange : s.cfg.gainMin.toNat ≤ s.cfg.gainMax.toNat
  /-- LAST_SPACE: the last event was a space or none was emitted. -/
  lastSpace : s.lastSpace = true ↔ ∀ e, s.events.getLast? = some e → e.code = 0x20
  /-- The output never starts with a space. -/
  firstEvent : ∀ e, s.events.head? = some e → e.code ≠ 0x20
  /-- The output never holds two spaces in a row. -/
  oneSpace : noAdjacentSpaces s.events = true
  /-- A space carries no durations (R166). -/
  spaceDurs : ∀ e ∈ s.events, e.code = 0x20 → e.durs = []
  /-- GAIN is the last value emitted, or the reset value. -/
  gain : s.gain = s.setGains.getLast?.getD s.cfg.gainReset
  /-- Every SetGain lies in the actuator's range. -/
  gainsInRange : ∀ g ∈ s.setGains, s.cfg.gainMin.toNat ≤ g.toNat ∧ g.toNat ≤ s.cfg.gainMax.toNat

/-! ## The host's duties -/

/-- How far the host's boot sequence has come (R224); its writes count in the order of the steps. -/
inductive Boot where
  /-- Nothing of steps 5 and 6 is done. -/
  | begun
  /-- GAIN has been written, after NBS was read and COEFF written (steps 3 and 5). -/
  | gainDriven
  /-- STATUS has then been cleared (step 6). -/
  | done
  deriving DecidableEq, Repr

/-- What a duty depends on that the block does not hold. -/
structure Duty where
  /-- The boot sequence (R224). -/
  boot : Boot
  /-- The last timestamp issued (R228). -/
  lastNow : Option U32
  /-- The block size the host last read at a boundary, that is with no block open (R226); none from a BLKEND or an NBMIN
  write after which NBS_CHG is 1 until NBS is read again (R227). -/
  sizeRead : Option U32
  /-- The block size for which COEFF was last written (R225); none from such a command until COEFF is rewritten for the size
  that was read again (R227). -/
  tunedFor : Option U32
  /-- The length of the open block: the size read when it was begun (R226). -/
  blockSize : Option U32
  /-- COEFF was written after the last SAMPLE (R230). -/
  tunedSinceSample : Bool
  /-- CTRL.SCAN was cleared and no TRESET has followed (R230). -/
  timingStale : Bool
  /-- CTRL.SCAN was cleared, and COEFF has not been written for the acquired tone, before or after it (R230). -/
  toneStale : Bool
  deriving DecidableEq, Repr

/-- The duties at reset: nothing read, nothing written. -/
def Duty.start : Duty where
  boot := .begun
  lastNow := none
  sizeRead := none
  tunedFor := none
  blockSize := none
  tunedSinceSample := false
  timingStale := false
  toneStale := false

/-- A timestamp is not below the one before it (R228). DESIGN CHOICE (assumption 14): the two are compared as u32 values, so
a clock that wraps past 2^32 - 1 breaks the duty. -/
def inOrder (last : Option U32) (now : U32) : Bool :=
  match last with
  | none => true
  | some t => decide (t.toNat ≤ now.toNat)

/-- The first SAMPLE of a block may be issued: the host has booted (R224), NBS_CHG is clear, NBS has been read and COEFF
written for it (R225, R227). -/
def readyForBlock (d : Duty) (s : State) : Bool :=
  decide (d.boot = .done) && !s.nbsChg && decide (d.sizeRead = some s.nbs) && decide (d.tunedFor = some s.nbs)

/-- What leaving a scan asks before the next SAMPLE, in a block or at its start, has been done: COEFF written and TRESET
issued (R230). -/
def scanLeft (d : Duty) : Bool := !d.timingStale && !d.toneStale

/-- A command keeps the host's duties in this state (R224 to R230). -/
def keepsDuty (d : Duty) (s : State) : Instr → Bool
  | .nop => true
  | .sample _ => (if s.scnt = 0 then readyForBlock d s else decide (d.blockSize ≠ some s.scnt)) && scanLeft d
  | .blkend now => decide (s.scnt ≠ 0) && decide (d.blockSize = some s.scnt) && inOrder d.lastNow now
  | .wr a _ => decide (a ≠ regIndex .coeff) || decide (s.scnt = 0)
  | .rd _ => true
  | .treset now => inOrder d.lastNow now

/-- The duties after a BLKEND or an NBMIN write that left the block in `t`. NBS_CHG is 1: NBS is to be read and COEFF to be
rewritten before the next block, also where NBS has come back to the size read before (R227). -/
def Duty.resized (d : Duty) (t : State) : Duty :=
  if t.nbsChg then { d with sizeRead := none, tunedFor := none } else d

/-- The duties after a WR of `v` to a register, `s` the state before it and `t` the state after it: COEFF tunes the filter
(a NaN stores nothing, 10_state.md R24), clearing CTRL.SCAN leaves a scan (R230), NBMIN may resize the block (R227), GAIN and
the four sticky bits of STATUS are the last steps of the boot sequence (R224). -/
def Duty.nextWr (d : Duty) (s t : State) (v : U32) : Reg → Duty
  | .coeff => if isNaN v then d else { d with tunedFor := d.sizeRead, tunedSinceSample := true, toneStale := false }
  | .ctrl => if s.scan && !v.getLsbD 0 then { d with timingStale := true, toneStale := !d.tunedSinceSample } else d
  | .nbmin => d.resized t
  | .gain => if d.boot = .begun && d.tunedFor.isSome then { d with boot := .gainDriven } else d
  | .status => if d.boot = .gainDriven && v &&& 0x78 = 0x78 then { d with boot := .done } else d
  | _ => d

/-- The duties after a command, `s` the state before it. A RD of NBS inside an open block is no read at the boundary, and a
block keeps the length it was begun with (R226). -/
def Duty.next (d : Duty) (s : State) : Instr → Duty
  | .nop => d
  | .sample _ => { d with tunedSinceSample := false, blockSize := if s.scnt = 0 then d.sizeRead else d.blockSize }
  | .blkend now => { d.resized (after (.blkend now) s) with lastNow := some now }
  | .wr a v =>
    match regOfIndex a with
    | some r => d.nextWr s (after (.wr a v) s) v r
    | none => d
  | .rd a => if a = regIndex .nbs ∧ s.scnt = 0 then { d with sizeRead := some s.nbs } else d
  | .treset now => { d with lastNow := some now, timingStale := false }

/-- The duties after a sequence of commands, `s` the state before it. -/
def Duty.nextAll : Duty → State → List Instr → Duty
  | d, _, [] => d
  | d, s, i :: is => (d.next s i).nextAll (after i s) is

/-- The host keeps its duties through the commands. -/
def dutiful : Duty → State → List Instr → Bool
  | _, _, [] => true
  | d, s, i :: is => keepsDuty d s i && dutiful (d.next s i) (after i s) is

/-- A safe run of the commands from `s`: the duties kept and no error bit ever set. -/
def safeRun (s : State) (is : List Instr) : Bool :=
  dutiful Duty.start s is && unmarked (afterAll is s)

/-- The host's boot sequence after reset (R224): NBS read and COEFF written, the tunables, NBS read and COEFF written again
(an NBMIN write may have raised NBS), GAIN written once, STATUS cleared. -/
def hostBoot (coeff : F32) (tunables : List Instr) (coeffAgain : F32) (gain : U32) : List Instr :=
  [.rd (regIndex .nbs), .wr (regIndex .coeff) coeff] ++ tunables ++
  [.rd (regIndex .nbs), .wr (regIndex .coeff) coeffAgain, .wr (regIndex .gain) gain, .wr (regIndex .status) 0x78]

/-- The host's answer to NBS_CHG before the next block (R227). -/
def hostResize (coeff : F32) : List Instr :=
  [.rd (regIndex .nbs), .wr (regIndex .coeff) coeff, .wr (regIndex .status) 0x40]

/-- The host's commands when its scanner leaves scanning at `now` (R230); `ctrl` has SCAN = 0. -/
def hostScanExit (coeff : F32) (ctrl now : U32) : List Instr :=
  [.wr (regIndex .coeff) coeff, .wr (regIndex .ctrl) ctrl, .treset now]

end Sys2Proof.Safety
end

