-- ==== Sys2Proof/Certificates/Slice0/Obligations.lean ====
section
/-! DEFINITION. The statements for the provers. Each docstring names the rules it formalises. A statement over every state
holds for every choice of the parameters, since a state carries them (assumption 1). -/

open Sys2Proof Sys2Proof.Machine Sys2Proof.Safety

/-! ## Encoding -/

/-- Decode and encode agree, as words and as transported bytes, for every command and every operand value; every Instr is
well-formed (30_encoding.md R71 to R74, R78; 20_memory.md R53). -/
def Obligations.DecodeOfEncodedBytes : Prop :=
  ∀ (i : Instr) (rest : List Byte),
    decode (encode i) = .ok i ∧ decodeBytes (encodeBytes i ++ rest) = .ok (i, rest) ∧
    (encodeBytes i).length = 6 ∧ decodeTableWord 48 (encode i).toNat = some i

/-- The ignored fields of a command word select nothing, a word that has bits set there is not rejected, and the assembled
word has zeros there (30_encoding.md R76). The fields that count are written out: OP, with DATA[15:0] of SAMPLE, DATA of
BLKEND and TRESET, ADDR and DATA of WR, ADDR of RD. -/
def Obligations.IgnoredFieldsSelectNothing : Prop :=
  (∀ (w w' : CommandWord) (i : Instr), decode w = .ok i →
    encode i = w &&& usedBits i ∧ (w' &&& usedBits i = w &&& usedBits i → decode w' = .ok i)) ∧
  (usedBits .nop = 0xFF0000000000 ∧ (∀ x, usedBits (.sample x) = 0xFF000000FFFF) ∧
    (∀ now, usedBits (.blkend now) = 0xFF00FFFFFFFF) ∧ (∀ a v, usedBits (.wr a v) = 0xFFFFFFFFFFFF) ∧
    (∀ a, usedBits (.rd a) = 0xFFFF00000000) ∧ ∀ now, usedBits (.treset now) = 0xFF00FFFFFFFF)

/-- Every one of the 2^48 words is one of the six commands, the one its OP selects, or illegal (30_encoding.md R77). -/
def Obligations.EveryWordLegalOrIllegal : Prop :=
  ∀ w : CommandWord,
    ((opField w).toNat ≤ 5 ∧ ∃ i, decode w = .ok i ∧ opcode i = opField w) ∨
    (6 ≤ (opField w).toNat ∧ decode w = .error (.illegalOpcode (opField w)))

/-- A word travels little-endian, byte k holding bits 8k+7 to 8k, and is read back from its bytes (20_memory.md R53). -/
def Obligations.TransportIsLittleEndian : Prop :=
  ∀ (w : CommandWord) (rest : List Byte),
    (∀ k < 6, (bytesOfWord w)[k]? = some (w.extractLsb' (8 * k) 8)) ∧
    decodeBytes (bytesOfWord w ++ rest) = (decode w).map fun i => (i, rest)

/-- Words written out from the encodings decode to the commands they stand for (30_encoding.md R74; the words are those of
95_test_vectors.md T-ENC and T-WR). A sanity statement. -/
def Obligations.SpelledWordsDecode : Prop :=
  decode 0x00FFFFFFFFFF = .ok .nop ∧ decode 0x01AB1234FFFC = .ok (.sample (-4)) ∧
  decode 0x02000000000A = .ok (.blkend 10) ∧ decode 0x030500011170 = .ok (.wr 5 70000) ∧
  decode 0x041200000000 = .ok (.rd 0x12) ∧ decode 0x0542DEADBEEF = .ok (.treset 0xDEADBEEF) ∧
  decode 0x060000000000 = .error (.illegalOpcode 6) ∧ decode 0xFF1234567890 = .error (.illegalOpcode 0xFF)

/-- A source line assembles unless an operand is out of its range, or a block has no sample; then it is refused. What it
assembles to is the command whose operands have the literals' values, and of a pseudo-instruction its expansion (30_encoding.md
R79, R80, R81; that a block needs a sample is assumption 12, and what a float literal stands for is
FloatLiteralsAreNearest's). The last clause is the index of each named register (10_state.md R21). -/
def Obligations.AssembledOperandsKeepValues : Prop :=
  let notInt16 (x : Int) : Prop := x < -32768 ∨ 32767 < x
  let notU32 (n : Nat) : Prop := 2 ^ 32 ≤ n
  let notReg (r : AsmReg) : Prop := ∃ n, r = .raw n ∧ 255 < n
  let notValue (v : AsmValue) : Prop := ∃ n, v = .int n ∧ notU32 n
  let names (r : AsmReg) (a : Byte) : Prop :=
    match r with
    | .named q => a = regIndex q
    | .raw n => a.toNat = n
  let holds (v : AsmValue) (d : U32) : Prop :=
    match v with
    | .int n => d.toNat = n
    | .float x => d = floatLiteral x
  (∀ l : AsmLine, assembleLine l = none ↔
    match l with
    | .nop => False
    | .sample x => notInt16 x
    | .blkend now => notU32 now
    | .wr r v => notReg r ∨ notValue v
    | .rd r => notReg r
    | .treset now => notU32 now
    | .block now xs => notU32 now ∨ xs = [] ∨ ∃ x ∈ xs, notInt16 x
    | .tone now x => notU32 now ∨ notInt16 x
    | .silent now => notU32 now
    | .clr mask => notU32 mask
    | .wrf r _ => notReg r) ∧
  (∀ (l : AsmLine) (is : List Instr), assembleLine l = some is →
    match l with
    | .nop => is = [.nop]
    | .sample x => ∃ y : I16, y.toInt = x ∧ is = [.sample y]
    | .blkend now => ∃ t : U32, t.toNat = now ∧ is = [.blkend t]
    | .wr r v => ∃ a d, names r a ∧ holds v d ∧ is = [.wr a d]
    | .rd r => ∃ a, names r a ∧ is = [.rd a]
    | .treset now => ∃ t : U32, t.toNat = now ∧ is = [.treset t]
    | .block now xs => ∃ (t : U32) (ys : List I16), t.toNat = now ∧ ys.map BitVec.toInt = xs ∧
        is = ys.map .sample ++ [.blkend t]
    | .tone now x => ∃ (t : U32) (y : I16), t.toNat = now ∧ y.toInt = x ∧ is = [.sample y, .blkend t]
    | .silent now => ∃ t : U32, t.toNat = now ∧ is = [.sample 0, .blkend t]
    | .clr mask => ∃ d : U32, d.toNat = mask ∧ is = [.wr 0x01 d]
    | .wrf r x => ∃ a, names r a ∧ is = [.wr a (floatLiteral x)]) ∧
  regIndex .ctrl = 0x00 ∧ regIndex .status = 0x01 ∧ regIndex .coeff = 0x02 ∧ regIndex .tfloor = 0x03 ∧
  regIndex .react = 0x04 ∧ regIndex .hold = 0x05 ∧ regIndex .sf10 = 0x06 ∧ regIndex .nbmin = 0x07 ∧
  regIndex .gain = 0x08 ∧ regIndex .mag = 0x09 ∧ regIndex .thr = 0x0A ∧ regIndex .loud = 0x0B ∧
  regIndex .lcnt = 0x0C ∧ regIndex .q1 = 0x0D ∧ regIndex .q2 = 0x0E ∧ regIndex .scnt = 0x0F ∧
  regIndex .unit = 0x10 ∧ regIndex .wpm = 0x11 ∧ regIndex .nbs = 0x12 ∧ regIndex .highdur = 0x13 ∧
  regIndex .lowdur = 0x14 ∧ regIndex .highstart = 0x15 ∧ regIndex .lowstart = 0x16 ∧ regIndex .lastrawt = 0x17 ∧
  regIndex .lastloudt = 0x18 ∧ regIndex .code = 0x19 ∧ ∀ i : Fin 11, (regIndex (.dur i)).toNat = 0x1A + i.val

/-! ## Steps -/

/-- A step at a command port whose next word decodes to a command is that command's effect, the word taken from the port
(40_commands.md R90; that the words wait in the list `port` is assumption 3). -/
def Obligations.StepRunsDecodedCommand : Prop :=
  ∀ (s : State) (w : CommandWord) (rest : List PortInput) (i : Instr),
    s.rst = false → s.port = .command w :: rest → decode w = .ok i →
    step s = exec i { s with port := rest }

/-- A word whose OP is 0x06 to 0xFF changes no state except ERR_CMD (and the model's fault mark, 60_exceptions.md R209),
emits nothing and returns no response (30_encoding.md R75; that the word is taken from the list `port` is assumption 3). -/
def Obligations.StepIllegalWordFlagsOnly : Prop :=
  ∀ (s : State) (w : CommandWord) (rest : List PortInput),
    s.rst = false → s.port = .command w :: rest → 6 ≤ (opField w).toNat →
    step s = .next { s with port := rest, errCmd := true, faultMark := true }

/-- With no command the block holds its state (60_exceptions.md R216; that no command is an empty `port` is assumption 3). -/
def Obligations.StepHoldsStateWithoutInput : Prop :=
  ∀ s : State, s.port = [] → step s = .next s

/-- When the reset input is released every register, field, hidden bit and buffer is at its reset value; while it is asserted a
command is not accepted and nothing is emitted (70_reset_and_hazards.md R220). The model's choices are: that the registers
take their reset values at assertion too, that an input of the level `rst` has already does the same, and what the output
record and the fault mark do (assumption 5); and that the offered word is dropped (assumption 4). -/
def Obligations.ResetInputRestoresResetState : Prop :=
  (∀ (s : State) (level : Bool) (rest : List PortInput), s.port = .rst level :: rest →
    step s = .next { State.resetWith s.cfg with rst := level, port := rest, faultMark := s.faultMark }) ∧
  (∀ (s : State) (w : CommandWord) (rest : List PortInput), s.rst = true → s.port = .command w :: rest →
    step s = .next { s with port := rest })

/-- Commands presented at the port and stepped are executed one at a time, in order, each to completion, and nothing of a
later command is seen by an earlier one (20_memory.md R58, 70_reset_and_hazards.md R235; the list `port` is assumption 3). -/
def Obligations.RunExecutesCommandsInOrder : Prop :=
  ∀ (is : List Instr) (s : State), s.rst = false →
    core.run is.length { s with port := is.map fun i => .command (encode i) } =
      .next (afterAll is { s with port := [] })

/-- No command reads the inputs still waiting, the record of the outputs or the fault mark, nor changes the inputs or the
parameters; it only appends to the outputs (10_state.md R43, 20_memory.md R58, 60_exceptions.md R209). -/
def Obligations.CommandsIgnoreInputsAndRecords : Prop :=
  ∀ (i : Instr) (s : State), ∃ t dm de dg dr, exec i s = .next t ∧
    t.port = s.port ∧ t.rst = s.rst ∧ t.cfg = s.cfg ∧ t.faultMark = (s.faultMark || dm) ∧
    t.events = s.events ++ de ∧ t.setGains = s.setGains ++ dg ∧ t.responses = s.responses ++ dr ∧
    ∀ p b m e g r,
      exec i { s with port := p, rst := b, faultMark := m, events := e, setGains := g, responses := r } =
        .next { t with port := p, rst := b, faultMark := m || dm, events := e ++ de, setGains := g ++ dg,
                       responses := r ++ dr }

/-- A step never changes the parameters (10_state.md R43); that they stand in State is assumption 1. -/
def Obligations.StepKeepsParameters : Prop :=
  ∀ s t : State, step s = .next t → t.cfg = s.cfg

/-! ## Reset -/

/-- The complete reset state, for every choice of the parameters with LA_N at least 1, which 45_gain_controller.md R181 says it
is (70_reset_and_hazards.md R221, which the spec derives from 10_state.md R21 to R39). -/
def Obligations.ResetStateComplete : Prop :=
  ∀ p : Params, 1 ≤ p.laN.toNat →
    let s := State.resetWith p
    s.scan = false ∧ s.autotune = false ∧ s.diag = false ∧ s.raw = .absent ∧ s.filt = .absent ∧
    s.errCmd = false ∧ s.errHaz = false ∧ s.errNum = false ∧ s.nbsChg = false ∧
    s.prevRaw = .absent ∧ s.prevFilt = .absent ∧ s.stallDone = false ∧ s.lastSpace = true ∧ s.loudSeen = false ∧
    s.coeff = 0x00000000 ∧ s.tfloor = p.tfloorReset ∧ s.thr = p.tfloorReset ∧ s.react = p.reactReset ∧
    s.hold = p.holdReset ∧ s.sf10 = 50 ∧ s.nbmin = p.nbminReset ∧ s.gain = p.gainReset ∧
    s.mag = 0 ∧ s.loud = 0 ∧ s.q1 = 0 ∧ s.q2 = 0 ∧ s.lcnt = 0 ∧ s.scnt = 0 ∧ s.unit = 0 ∧ s.wpm = 0 ∧
    s.nbs.toNat = max p.nbminReset.toNat (min p.nbMax.toNat 143) ∧
    s.highdur = 0 ∧ s.lowdur = 0 ∧ s.highstart = 0 ∧ s.lowstart = 0 ∧ s.lastrawt = 0 ∧ s.lastloudt = 0 ∧
    s.code = [] ∧ s.dur = [] ∧
    exec (.rd 0x01) s = .next { s with responses := [0x00000100] }

/-- The reset state meets both invariants, for every choice of the parameters that the model reads as legal (assumption 10),
and for TC0, which `State.reset` takes (assumption 2). -/
def Obligations.ResetMeetsInvariants : Prop :=
  (∀ p : Params, paramsOk p = true →
    RegistersInRange (State.resetWith p) ∧ OutputsConsistent (State.resetWith p)) ∧
  RegistersInRange State.reset ∧ OutputsConsistent State.reset

/-! ## Invariants -/

/-- Every step keeps the register invariants (10_state.md R42, R31, R34; 41_goertzel.md R115; 60_exceptions.md R209). The
invariant asks that the parameters are legal, as assumption 10 reads it. -/
def Obligations.StepKeepsRegistersInRange : Prop :=
  ∀ s t : State, RegistersInRange s → step s = .next t → RegistersInRange t

/-- Every step keeps the output invariants: no leading space, never two spaces in a row, LAST_SPACE and GAIN agree with what
was emitted (44_symbol_decoder.md R165, 45_gain_controller.md R185). That a reset empties the record is assumption 5. -/
def Obligations.StepKeepsOutputsConsistent : Prop :=
  ∀ s t : State, OutputsConsistent s → step s = .next t → OutputsConsistent t

/-- The fault mark is never cleared, and an error bit that a step sets sets it (60_exceptions.md R209). That a reset keeps it
is assumption 5. -/
def Obligations.FaultMarkNeverCleared : Prop :=
  ∀ s t : State, step s = .next t →
    (s.faultMark = true → t.faultMark = true) ∧
    (t.errCmd = true → s.errCmd = true ∨ t.faultMark = true) ∧
    (t.errHaz = true → s.errHaz = true ∨ t.faultMark = true) ∧
    (t.errNum = true → s.errNum = true ∨ t.faultMark = true)

/-- One command sets at most ERR_CMD alone, ERR_HAZ alone, or ERR_NUM with NBS_CHG; an error bit and NBS_CHG together only
in a BLKEND (60_exceptions.md R206). -/
def Obligations.SimultaneousConditions : Prop :=
  ∀ (i : Instr) (s : State), ∃ t, exec i s = .next t ∧
    (s.errCmd = false → t.errCmd = true → t.errHaz = s.errHaz ∧ t.errNum = s.errNum ∧ t.nbsChg = s.nbsChg) ∧
    (s.errHaz = false → t.errHaz = true → t.errCmd = s.errCmd ∧ t.errNum = s.errNum ∧ t.nbsChg = s.nbsChg) ∧
    (s.errNum = false → t.errNum = true → t.errCmd = s.errCmd ∧ t.errHaz = s.errHaz ∧ ∃ now, i = .blkend now)

/-- After a command an error bit is set exactly where it was set and the host did not write 1 to it, or the command has one of
the bit's causes (60_exceptions.md R201, R202, R203, R208). An illegal word, which is no command, is
StepIllegalWordFlagsOnly's. -/
def Obligations.ErrorBitsFollowTheirCauses : Prop :=
  ∀ (i : Instr) (s : State), ∃ t, exec i s = .next t ∧
    let kept (bit : Bool) (k : Nat) : Prop := bit = true ∧ ¬∃ v : U32, i = .wr 0x01 v ∧ v.getLsbD k = true
    let m2 := fsub (fadd (fmul s.q1 s.q1) (fmul s.q2 s.q2)) (fmul (fmul s.q1 s.q2) s.coeff)
    (t.errCmd = true ↔ kept s.errCmd 3 ∨ (∃ a : Byte, i = .rd a ∧ 0x25 ≤ a.toNat) ∨
      (∃ (a : Byte) (v : U32), i = .wr a v ∧ 0x25 ≤ a.toNat) ∨ (∃ v : F32, i = .wr 0x02 v ∧ isNaN v = true) ∨
      ∃ v : F32, i = .wr 0x03 v ∧ (isNaN v = true ∨ v = 0x7F800000)) ∧
    (t.errHaz = true ↔ kept s.errHaz 4 ∨ ∃ v : F32, i = .wr 0x02 v ∧ isNaN v = false ∧ s.scnt ≠ 0) ∧
    (t.errNum = true ↔ kept s.errNum 5 ∨
      ∃ now : U32, i = .blkend now ∧ (isNaN m2 = true ∨ m2 = 0x7F800000 ∨ m2 = 0xFF800000))

/-- A register changes only by the commands that write it: the tunables by a WR to their index, GAIN and NBS also by BLKEND,
the filter by SAMPLE and BLKEND, the timing record by BLKEND and TRESET, the rest of the data path by BLKEND (10_state.md R22
to R38; 40_commands.md R91 to R96). -/
def Obligations.RegistersChangeOnlyByTheirWriters : Prop :=
  ∀ (i : Instr) (s : State), ∃ t, exec i s = .next t ∧
    let written (a : Byte) : Prop := ∃ v : U32, i = .wr a v
    let pass : Prop := ∃ now : U32, i = .blkend now
    let sampled : Prop := ∃ x : I16, i = .sample x
    let treset : Prop := ∃ now : U32, i = .treset now
    (¬written 0x00 → t.scan = s.scan ∧ t.autotune = s.autotune ∧ t.diag = s.diag) ∧
    (¬written 0x02 → t.coeff = s.coeff) ∧ (¬written 0x03 → t.tfloor = s.tfloor) ∧ (¬written 0x04 → t.react = s.react) ∧
    (¬written 0x05 → t.hold = s.hold) ∧ (¬written 0x06 → t.sf10 = s.sf10) ∧ (¬written 0x07 → t.nbmin = s.nbmin) ∧
    (¬(written 0x08 ∨ pass) → t.gain = s.gain ∧ t.lcnt = s.lcnt ∧ t.setGains = s.setGains) ∧
    (¬(written 0x03 ∨ pass) → t.thr = s.thr) ∧ (¬(written 0x07 ∨ pass) → t.nbs = s.nbs) ∧
    (¬(sampled ∨ pass) → t.q1 = s.q1 ∧ t.q2 = s.q2 ∧ t.scnt = s.scnt) ∧
    (¬(treset ∨ pass) → t.unit = s.unit ∧ t.highdur = s.highdur ∧ t.lowdur = s.lowdur ∧ t.highstart = s.highstart ∧
      t.lowstart = s.lowstart ∧ t.prevFilt = s.prevFilt ∧ t.stallDone = s.stallDone) ∧
    (¬pass → t.mag = s.mag ∧ t.loud = s.loud ∧ t.wpm = s.wpm ∧ t.code = s.code ∧ t.dur = s.dur ∧ t.raw = s.raw ∧
      t.filt = s.filt ∧ t.prevRaw = s.prevRaw ∧ t.lastSpace = s.lastSpace ∧ t.loudSeen = s.loudSeen ∧
      t.lastrawt = s.lastrawt ∧ t.lastloudt = s.lastloudt ∧ t.events = s.events) ∧
    ((¬∃ a : Byte, i = .rd a) → t.responses = s.responses)

/-- A host that keeps its duties never makes ERR_HAZ appear (70_reset_and_hazards.md R229, 60_exceptions.md R202; the duties
are read as assumption 14 says). -/
def Obligations.DutifulHostCausesNoHazard : Prop :=
  ∀ (is : List Instr) (d : Duty) (s : State), s.errHaz = false → dutiful d s is = true → (afterAll is s).errHaz = false

/-! ## NOP, SAMPLE, TRESET -/

/-- NOP leaves everything unchanged, and every word with OP 0x00 is a NOP (40_commands.md R91). -/
def Obligations.NopLeavesEverything : Prop :=
  (∀ s : State, exec .nop s = .next s) ∧ (∀ w : CommandWord, opField w = 0x00 → decode w = .ok .nop)

/-- SAMPLE is one step of the filter's recursion on Q1, Q2 and SCNT and changes nothing else; the sample is DATA[15:0] as a
two's complement number, exact as a binary32 (41_goertzel.md R110, 40_commands.md R92). -/
def Obligations.SampleRunsFilterStep : Prop :=
  ∀ (x : I16) (s : State),
    exec (.sample x) s = .next { s with
      q1 := fadd (fsub (fmul s.coeff s.q1) s.q2) (fofInt x.toInt)
      q2 := s.q1
      scnt := BitVec.ofNat 32 (min (s.scnt.toNat + 1) (2 ^ 32 - 1)) } ∧
    isFinite (fofInt x.toInt) = true ∧ fval (fofInt x.toInt) = x.toInt * 2 ^ 149 ∧
    ∀ w : CommandWord, opField w = 0x01 → decode w = .ok (.sample (w.extractLsb' 0 16))

/-- TRESET resets the timing record at `now` and changes nothing else (40_commands.md R96). -/
def Obligations.TresetResetsTimingRecord : Prop :=
  (∀ (now : U32) (s : State), exec (.treset now) s = .next { s with
    highstart := now, lowstart := now, highdur := 0, lowdur := 0, unit := 0, prevFilt := s.filt, stallDone := false }) ∧
  ∀ w : CommandWord, opField w = 0x05 → decode w = .ok (.treset (w.extractLsb' 0 32))

/-! ## RD and WR -/

/-- RD appends the register's image to the responses and changes nothing else; an unmapped index also flags ERR_CMD and
responds 0; DATA is ignored (40_commands.md R95). The CODE image is stated where LEN is in its range (10_state.md R42). -/
def Obligations.RdRespondsRegisterImage : Prop :=
  ∀ s : State,
    let responds (a : Byte) (v : U32) : Prop := exec (.rd a) s = .next { s with responses := s.responses ++ [v] }
    let bit (b : Bool) (k : Nat) : Nat := if b then 2 ^ k else 0
    responds 0x00 (BitVec.ofNat 32 (bit s.scan 0 + bit s.autotune 1 + bit s.diag 2)) ∧
    responds 0x01 (BitVec.ofNat 32 (bit (decide (s.raw = .present)) 0 + bit (decide (s.filt = .present)) 1 +
      bit (decide (s.lcnt = s.cfg.laN)) 2 + bit s.errCmd 3 + bit s.errHaz 4 + bit s.errNum 5 + bit s.nbsChg 6 +
      bit s.stallDone 7 + bit s.lastSpace 8 + bit s.loudSeen 9 + bit (decide (s.prevRaw = .present)) 10 +
      bit (decide (s.prevFilt = .present)) 11)) ∧
    responds 0x02 s.coeff ∧ responds 0x03 s.tfloor ∧ responds 0x04 s.react ∧ responds 0x05 s.hold ∧
    responds 0x06 s.sf10 ∧ responds 0x07 s.nbmin ∧ responds 0x08 s.gain ∧ responds 0x09 s.mag ∧
    responds 0x0A s.thr ∧ responds 0x0B s.loud ∧ responds 0x0C s.lcnt ∧ responds 0x0D s.q1 ∧ responds 0x0E s.q2 ∧
    responds 0x0F s.scnt ∧ responds 0x10 s.unit ∧ responds 0x11 s.wpm ∧ responds 0x12 s.nbs ∧
    responds 0x13 s.highdur ∧ responds 0x14 s.lowdur ∧ responds 0x15 s.highstart ∧ responds 0x16 s.lowstart ∧
    responds 0x17 s.lastrawt ∧ responds 0x18 s.lastloudt ∧
    (s.code.length ≤ 7 → ∃ sym : Nat, responds 0x19 (BitVec.ofNat 32 (s.code.length + 256 * sym)) ∧
      ∀ k, sym.testBit k = decide (s.code[k]? = some .dash)) ∧
    (∀ k < 11, responds (BitVec.ofNat 8 (0x1A + k)) (if k < s.code.length then s.dur.getD k 0 else 0)) ∧
    (∀ a : Byte, 0x25 ≤ a.toNat →
      exec (.rd a) s = .next { s with errCmd := true, faultMark := true, responses := s.responses ++ [0] }) ∧
    ∀ w : CommandWord, opField w = 0x04 → decode w = .ok (.rd (w.extractLsb' 32 8))

/-- WR to CTRL stores its three bits; WR to STATUS clears the sticky bits whose data bit is 1; nothing else changes
(10_state.md R22, R23). -/
def Obligations.WrControlAndStatus : Prop :=
  ∀ (v : U32) (s : State),
    exec (.wr 0x00 v) s = .next { s with scan := v.getLsbD 0, autotune := v.getLsbD 1, diag := v.getLsbD 2 } ∧
    exec (.wr 0x01 v) s = .next { s with
      errCmd := if v.getLsbD 3 then false else s.errCmd
      errHaz := if v.getLsbD 4 then false else s.errHaz
      errNum := if v.getLsbD 5 then false else s.errNum
      nbsChg := if v.getLsbD 6 then false else s.nbsChg }

/-- WR to COEFF (10_state.md R24, 60_exceptions.md R202): a NaN is rejected with ERR_CMD; any other value is clamped to
[-2.0, +2.0], with ERR_HAZ where a block is open; the register is finite and in range; reset +0.0. -/
def Obligations.WrCoefficientClampsOrRejects : Prop :=
  (∀ (v : F32) (s : State), isNaN v = true →
    exec (.wr 0x02 v) s = .next { s with errCmd := true, faultMark := true }) ∧
  (∀ (v : F32) (s : State), isNaN v = false → ∃ c : F32,
    exec (.wr 0x02 v) s = .next { s with
      coeff := c
      errHaz := s.errHaz || decide (s.scnt ≠ 0)
      faultMark := s.faultMark || decide (s.scnt ≠ 0) } ∧
    (flt v 0xC0000000 = true → c = 0xC0000000) ∧ (flt 0x40000000 v = true → c = 0x40000000) ∧
    (fle 0xC0000000 v = true → fle v 0x40000000 = true → c = v) ∧
    isFinite c = true ∧ fle 0xC0000000 c = true ∧ fle c 0x40000000 = true) ∧
  ∀ p : Params, (State.resetWith p).coeff = 0x00000000

/-- WR to TFLOOR (10_state.md R25): a NaN or +inf is rejected with ERR_CMD; a negative value or -0.0 stores +0.0, any other
is stored as written; THR is raised to the floor where it is not above it; reset TFLOOR_RESET. -/
def Obligations.WrThresholdFloorKeepsInvariant : Prop :=
  (∀ (v : F32) (s : State), isNaN v = true ∨ v = 0x7F800000 →
    exec (.wr 0x03 v) s = .next { s with errCmd := true, faultMark := true }) ∧
  (∀ (v : F32) (s : State), isNaN v = false → v ≠ 0x7F800000 → ∃ f h : F32,
    exec (.wr 0x03 v) s = .next { s with tfloor := f, thr := h } ∧
    (flt v 0 = true ∨ v = 0x80000000 → f = 0) ∧ (fle 0 v = true → v ≠ 0x80000000 → f = v) ∧
    (fge s.thr f = true → h = s.thr) ∧ (fge s.thr f = false → h = f) ∧
    isFinite f = true ∧ fge f 0 = true ∧ fge h f = true) ∧
  ∀ p : Params, (State.resetWith p).tfloor = p.tfloorReset

/-- WR to REACT, HOLD and SF10 stores the clamped data and changes nothing else; their reset values (10_state.md R26, R27,
R28). -/
def Obligations.WrIntegerTunablesClamp : Prop :=
  (∀ (v : U32) (s : State), ∃ x : U32, exec (.wr 0x04 v) s = .next { s with react := x } ∧
    x.toNat = max 1 (min 255 v.toNat)) ∧
  (∀ (v : U32) (s : State), ∃ x : U32, exec (.wr 0x05 v) s = .next { s with hold := x } ∧
    x.toNat = min s.cfg.holdMax.toNat v.toNat) ∧
  (∀ (v : U32) (s : State), ∃ x : U32, exec (.wr 0x06 v) s = .next { s with sf10 := x } ∧
    x.toNat = max 10 (min 100 v.toNat)) ∧
  ∀ p : Params, (State.resetWith p).react = p.reactReset ∧ (State.resetWith p).hold = p.holdReset ∧
    (State.resetWith p).sf10 = 50

/-- WR to NBMIN stores the clamped data and raises NBS, with NBS_CHG, where NBS is below it; reset NBMIN_RESET
(10_state.md R29). -/
def Obligations.WrBlockSizeFloorRaisesSize : Prop :=
  (∀ (v : U32) (s : State), ∃ m : U32, m.toNat = max 1 (min s.cfg.nbMax.toNat v.toNat) ∧
    (s.nbs.toNat < m.toNat → exec (.wr 0x07 v) s = .next { s with nbmin := m, nbs := m, nbsChg := true }) ∧
    (m.toNat ≤ s.nbs.toNat → exec (.wr 0x07 v) s = .next { s with nbmin := m })) ∧
  ∀ p : Params, (State.resetWith p).nbmin = p.nbminReset

/-- WR to GAIN stores the clamped data, emits SetGain with it, clears LCNT, and changes nothing else, LOUD, LASTLOUDT and
LOUD_SEEN among it (45_gain_controller.md R186). -/
def Obligations.WrGainEmitsAndRestartsAverage : Prop :=
  ∀ (v : U32) (s : State), ∃ g : U32, g.toNat = max s.cfg.gainMin.toNat (min s.cfg.gainMax.toNat v.toNat) ∧
    exec (.wr 0x08 v) s = .next { s with gain := g, lcnt := 0, setGains := s.setGains ++ [g] }

/-- A RD of an unmapped index responds 0 and flags ERR_CMD; a WR to one flags ERR_CMD and changes nothing else; a WR to a
read-only register is ignored without a flag; the reserved bits of CTRL and STATUS read 0 and ignore writes
(20_memory.md R57). -/
def Obligations.UnmappedAndReadOnlyAccesses : Prop :=
  (∀ (a : Byte) (v : U32) (s : State), 0x25 ≤ a.toNat →
    exec (.rd a) s = .next { s with errCmd := true, faultMark := true, responses := s.responses ++ [0x00000000] } ∧
    exec (.wr a v) s = .next { s with errCmd := true, faultMark := true }) ∧
  (∀ (a : Byte) (v : U32) (s : State), 0x09 ≤ a.toNat → a.toNat ≤ 0x24 → exec (.wr a v) s = .next s) ∧
  (∀ (v : U32) (s : State), exec (.wr 0x00 v) s = exec (.wr 0x00 (v &&& 0x7)) s ∧
    exec (.wr 0x01 v) s = exec (.wr 0x01 (v &&& 0x78)) s) ∧
  ∀ s : State, ∃ c u : U32, c &&& 0xFFFFFFF8 = 0 ∧ u &&& 0xFFFFF000 = 0 ∧
    exec (.rd 0x00) s = .next { s with responses := s.responses ++ [c] } ∧
    exec (.rd 0x01) s = .next { s with responses := s.responses ++ [u] }

/-! ## BLKEND -/

/-- BLKEND answers a next state: the stages in the order of 40_commands.md R93, the classifier only where CTRL.SCAN is 0, and
the frame of the pass: CTRL, ERR_CMD, ERR_HAZ, the tunables, the inputs and the responses stay. -/
def Obligations.BlkendRunsStagesInOrder : Prop :=
  ∀ (now : U32) (s : State),
    let a := goertzelFinish s
    let b := compareThreshold (thresholdUpdate a)
    let c := debounce now b
    let d := if c.scan then { c with prevFilt := c.filt } else classify now c
    let t := gainLoop now d
    exec (.blkend now) s = .next t ∧
    t.scan = s.scan ∧ t.autotune = s.autotune ∧ t.diag = s.diag ∧ t.errCmd = s.errCmd ∧ t.errHaz = s.errHaz ∧
    t.coeff = s.coeff ∧ t.tfloor = s.tfloor ∧ t.react = s.react ∧ t.hold = s.hold ∧ t.sf10 = s.sf10 ∧
    t.nbmin = s.nbmin ∧ t.port = s.port ∧ t.rst = s.rst ∧ t.cfg = s.cfg ∧ t.responses = s.responses

/-- The magnitude of the block: the five cases of m2, ERR_NUM only in the three non-finite ones, and the next block starts
from rest (41_goertzel.md R112, 60_exceptions.md R203). -/
def Obligations.BlkendComputesMagnitude : Prop :=
  ∀ (now : U32) (s : State), ∃ t, exec (.blkend now) s = .next t ∧
    let m2 := fsub (fadd (fmul s.q1 s.q1) (fmul s.q2 s.q2)) (fmul (fmul s.q1 s.q2) s.coeff)
    (isNaN m2 = true → t.mag = 0 ∧ t.errNum = true ∧ t.faultMark = true) ∧
    (m2 = 0x7F800000 → t.mag = 0x7F800000 ∧ t.errNum = true ∧ t.faultMark = true) ∧
    (m2 = 0xFF800000 → t.mag = 0 ∧ t.errNum = true ∧ t.faultMark = true) ∧
    (isFinite m2 = true → t.errNum = s.errNum ∧ t.faultMark = s.faultMark) ∧
    (isFinite m2 = true → fle m2 0 = true → t.mag = 0) ∧
    (isFinite m2 = true → flt 0 m2 = true → t.mag = fsqrt m2) ∧
    t.q1 = 0 ∧ t.q2 = 0 ∧ t.scnt = 0

/-- The magnitude is never negative and never NaN, from any state (41_goertzel.md R115). -/
def Obligations.MagnitudeNeverNegative : Prop :=
  ∀ (now : U32) (s : State), ∃ t, exec (.blkend now) s = .next t ∧
    isNaN t.mag = false ∧ t.mag.msb = false ∧ fge t.mag 0 = true

/-- An empty block has magnitude +0.0 and is no error (41_goertzel.md R113). -/
def Obligations.EmptyBlockHasZeroMagnitude : Prop :=
  ∀ (now : U32) (s : State), RegistersInRange s → s.scnt = 0 →
    ∃ t, exec (.blkend now) s = .next t ∧ t.mag = 0 ∧ t.errNum = s.errNum ∧ t.faultMark = s.faultMark

/-- A one-sample block at COEFF = 0.0 has magnitude |x| exactly for |x| ≤ 4096 (41_goertzel.md R114). -/
def Obligations.OneSampleBlockMagnitudeExact : Prop :=
  ∀ (x : I16) (now : U32) (s : State), s.coeff = 0 → s.q1 = 0 → s.q2 = 0 → x.toInt.natAbs ≤ 4096 →
    ∃ t u, exec (.sample x) s = .next t ∧ exec (.blkend now) t = .next u ∧
      u.mag = fofInt x.toInt.natAbs ∧ fval u.mag = x.toInt.natAbs * 2 ^ 149 ∧ u.errNum = s.errNum

/-- The threshold's moving average, only where the magnitude is above the floor, and never below the floor
(42_threshold_debounce.md R120). -/
def Obligations.ThresholdFollowsMagnitude : Prop :=
  ∀ (now : U32) (s : State), ∃ t, exec (.blkend now) s = .next t ∧
    let average := if fgt t.mag s.tfloor then fadd s.thr (fdiv (fsub t.mag s.thr) (fofInt s.react.toNat)) else s.thr
    (fge average s.tfloor = true → t.thr = average) ∧ (fge average s.tfloor = false → t.thr = s.tfloor)

/-- The threshold is at least the floor after every pass, and a magnitude that is not above the floor leaves a threshold that
is at least the floor at its value (42_threshold_debounce.md R122). -/
def Obligations.ThresholdNeverBelowFloor : Prop :=
  ∀ (now : U32) (s : State), isNaN s.tfloor = false → ∃ t, exec (.blkend now) s = .next t ∧
    fge t.thr t.tfloor = true ∧
    (fge s.thr s.tfloor = true → fgt t.mag s.tfloor = false → t.thr = s.thr)

/-- The comparator: PRESENT exactly where the magnitude exceeds the fraction of the new threshold
(42_threshold_debounce.md R121). -/
def Obligations.ComparatorSetsRaw : Prop :=
  ∀ (now : U32) (s : State), ∃ t, exec (.blkend now) s = .next t ∧
    (t.raw = .present ↔ fgt t.mag (fmul 0x3E99999A t.thr) = true)

/-- The debouncer: a raw transition is stamped and remembered; the filtered state follows a raw state that has held for
the hold time since it (42_threshold_debounce.md R123, R124). -/
def Obligations.DebouncerCommitsAfterHold : Prop :=
  ∀ (now : U32) (s : State), ∃ t, exec (.blkend now) s = .next t ∧
    (t.raw ≠ s.prevRaw → t.lastrawt = now) ∧ (t.raw = s.prevRaw → t.lastrawt = s.lastrawt) ∧ t.prevRaw = t.raw ∧
    (t.raw ≠ s.filt ∧ s.hold.toNat ≤ (now - t.lastrawt).toNat → t.filt = t.raw) ∧
    (¬(t.raw ≠ s.filt ∧ s.hold.toNat ≤ (now - t.lastrawt).toNat) → t.filt = s.filt)

/-- While CTRL.SCAN is 1 the edge is consumed unmeasured, and no timing register, CodeBuffer, WPM, NBS, STALL_DONE or
LAST_SPACE changes and no character is emitted (43_timing_classifier.md R131). -/
def Obligations.ScanningSuspendsDecoding : Prop :=
  ∀ (now : U32) (s : State), s.scan = true → ∃ t, exec (.blkend now) s = .next t ∧
    t.prevFilt = t.filt ∧ t.highdur = s.highdur ∧ t.lowdur = s.lowdur ∧ t.highstart = s.highstart ∧
    t.lowstart = s.lowstart ∧ t.unit = s.unit ∧ t.wpm = s.wpm ∧ t.nbs = s.nbs ∧ t.nbsChg = s.nbsChg ∧
    t.code = s.code ∧ t.dur = s.dur ∧ t.stallDone = s.stallDone ∧ t.lastSpace = s.lastSpace ∧ t.events = s.events

/-- A low→high edge ends the low run and classifies it: the word test first, then the letter window, else nothing
(43_timing_classifier.md R135, R136, R137, R138; 44_symbol_decoder.md R165; the edge's own writes are R130's). -/
def Obligations.RisingEdgeClassifiesGap : Prop :=
  ∀ (now : U32) (s : State), s.scan = false → s.prevFilt = .absent → ∃ t, exec (.blkend now) s = .next t ∧
    (t.filt = .present →
      let l := t.lowdur.toNat
      let u := s.unit.toNat
      let l10 := if 35 < s.wpm.toNat then 15 else if 30 < s.wpm.toNat then 12 else 10
      let flushed : List CharEvent := match decodeBuffer s with
        | some c => [⟨c, now, if s.diag then s.dur else []⟩]
        | none => []
      t.lowdur = now - s.lowstart ∧ t.highstart = now ∧ t.prevFilt = .present ∧ t.stallDone = false ∧
      t.highdur = s.highdur ∧ t.lowstart = s.lowstart ∧ t.unit = s.unit ∧ t.wpm = s.wpm ∧ t.nbs = s.nbs ∧
      t.nbsChg = s.nbsChg ∧
      (s.sf10.toNat * u * l10 ≤ 100 * l → t.code = [] ∧ t.dur = [] ∧ t.lastSpace = true ∧
        t.events = s.events ++ flushed ++ (if flushed = [] ∧ s.lastSpace = true then [] else [⟨0x20, now, []⟩])) ∧
      (¬(s.sf10.toNat * u * l10 ≤ 100 * l) → 2 * u * l10 ≤ 10 * l ∧ 10 * l < 5 * u * l10 →
        t.code = [] ∧ t.dur = [] ∧ t.events = s.events ++ flushed ∧
        t.lastSpace = (s.lastSpace && decide (flushed = []))) ∧
      (¬(s.sf10.toNat * u * l10 ≤ 100 * l) → ¬(2 * u * l10 ≤ 10 * l ∧ 10 * l < 5 * u * l10) →
        t.code = s.code ∧ t.dur = s.dur ∧ t.events = s.events ∧ t.lastSpace = s.lastSpace))

/-- A high→low edge ends the mark and updates the unit duration by the literal rule, its second test on the first's result
(43_timing_classifier.md R133, the edge's own writes R130's); after a mark of 1 ms or more the unit is at least 1
(10_state.md R34). No character is emitted. -/
def Obligations.FallingEdgeUpdatesUnit : Prop :=
  ∀ (now : U32) (s : State), s.scan = false → s.prevFilt = .present → ∃ t, exec (.blkend now) s = .next t ∧
    (t.filt = .absent →
      let h := t.highdur.toNat
      let u0 := s.unit.toNat
      let u1 := if h < 2 * u0 ∨ u0 = 0 then (h + 2 * u0) / 3 else u0
      let u2 := if h > 5 * u1 then h + u1 else u1
      t.highdur = now - s.highstart ∧ t.lowstart = now ∧ t.prevFilt = .absent ∧ t.stallDone = false ∧
      t.lowdur = s.lowdur ∧ t.highstart = s.highstart ∧ t.events = s.events ∧ t.lastSpace = s.lastSpace ∧
      t.unit.toNat = min u2 (2 ^ 32 - 1) ∧ (1 ≤ h → 1 ≤ t.unit.toNat) ∧
      (1 ≤ u0 → 2 * u0 ≤ h → h ≤ 5 * u0 → t.unit = s.unit))

/-- The mark is then classified at the unit as just updated: dot, dash or noise; a symbol is appended or, where the buffer
is full, clears it; the speed estimate and the block size follow a confirmed symbol (43_timing_classifier.md R134, R140,
R144, R145; 44_symbol_decoder.md R160). -/
def Obligations.FallingEdgeClassifiesMark : Prop :=
  ∀ (now : U32) (s : State), s.scan = false → s.prevFilt = .present → ∃ t, exec (.blkend now) s = .next t ∧
    (t.filt = .absent →
      let h := t.highdur.toNat
      let u := t.unit.toNat
      let appended (sym : Symbol) : Prop :=
        (s.code.length = 7 → t.code = [] ∧ t.dur = []) ∧
        (s.code.length ≠ 7 → t.code = s.code ++ [sym] ∧ t.dur = s.dur ++ [t.highdur])
      let sized : Prop :=
        let c : Int := max (s.nbmin.toNat : Int) (min (s.cfg.nbMax.toNat : Int) ((1290 - 20 * (t.wpm.toNat : Int)) / 9))
        (2 < (c - s.nbs.toNat).natAbs → (t.nbs.toNat : Int) = c ∧ t.nbsChg = true) ∧
        (¬(2 < (c - s.nbs.toNat).natAbs) → t.nbs = s.nbs ∧ t.nbsChg = s.nbsChg)
      let unsped : Prop := t.wpm = s.wpm ∧ t.nbs = s.nbs ∧ t.nbsChg = s.nbsChg
      let sped (um : Nat) : Prop :=
        (1 ≤ um → t.wpm.toNat = (s.wpm.toNat + 1200 / um) / 2 ∧ sized) ∧ (um = 0 → unsped)
      (3 * u < 5 * h ∧ h < 2 * u → appended .dot ∧ sped h) ∧
      (2 * u ≤ h ∧ h < 6 * u → appended .dash ∧ sped (h / 3)) ∧
      (¬(3 * u < 5 * h ∧ h < 2 * u) → ¬(2 * u ≤ h ∧ h < 6 * u) → t.code = s.code ∧ t.dur = s.dur ∧ unsped))

/-- A pass without an edge changes the decoder only by the stall guard, which fires once per low run, flushes and emits no
space; in a pass with an edge it does not fire (43_timing_classifier.md R139). -/
def Obligations.StallGuardFlushesOnce : Prop :=
  ∀ (now : U32) (s : State), s.scan = false → ∃ t, exec (.blkend now) s = .next t ∧
    (t.filt ≠ s.prevFilt → t.stallDone = false) ∧
    (t.filt = s.prevFilt →
      let fires := t.filt = .absent ∧ s.stallDone = false ∧ 6 * s.highdur.toNat < (now - s.lowstart).toNat
      let flushed : List CharEvent := match decodeBuffer s with
        | some c => [⟨c, now, if s.diag then s.dur else []⟩]
        | none => []
      t.prevFilt = t.filt ∧ t.highdur = s.highdur ∧ t.lowdur = s.lowdur ∧ t.highstart = s.highstart ∧
      t.lowstart = s.lowstart ∧ t.unit = s.unit ∧ t.wpm = s.wpm ∧ t.nbs = s.nbs ∧ t.nbsChg = s.nbsChg ∧
      (fires → t.stallDone = true ∧ t.code = [] ∧ t.dur = [] ∧ t.events = s.events ++ flushed ∧
        t.lastSpace = (s.lastSpace && decide (flushed = []))) ∧
      (¬fires → t.stallDone = s.stallDone ∧ t.code = s.code ∧ t.dur = s.dur ∧ t.events = s.events ∧
        t.lastSpace = s.lastSpace))

/-- The lookup is exact: a buffer decodes to a character exactly where it is not empty and the table holds its key, to that
entry's code, and two different buffers of one length have different keys (44_symbol_decoder.md R163, R164, R167). -/
def Obligations.CharacterLookupIsExact : Prop :=
  (∀ (s : State) (c : Byte), lutKeysDistinct s.cfg.charLut = true →
    (decodeBuffer s = some c ↔ s.code ≠ [] ∧
      ∃ e ∈ s.cfg.charLut, e.len = s.code.length ∧ e.sym = symBits s.code ∧ e.code = c)) ∧
  (∀ a b : List Symbol, a.length = b.length → symBits a = symBits b → a = b) ∧
  ∀ a : List Symbol, symBits a < 2 ^ a.length

/-- A pass emits nothing, one event, or a character and then one space, all with the pass's timestamp
(44_symbol_decoder.md R166, 43_timing_classifier.md R137). -/
def Obligations.PassEmitsAtMostTwoEvents : Prop :=
  ∀ (now : U32) (s : State), ∃ t, exec (.blkend now) s = .next t ∧
    (t.events = s.events ∨
     (∃ c d, t.events = s.events ++ [⟨c, now, d⟩] ∧ (d = [] ∨ s.diag = true)) ∨
     (∃ c d, t.events = s.events ++ [⟨c, now, d⟩, ⟨0x20, now, []⟩] ∧ (d = [] ∨ s.diag = true)))

/-- The loudness average after a pass: the count grows to LA_N and stops, and divides; only a SetGain of the same pass clears
it (45_gain_controller.md R181). -/
def Obligations.LoudnessAverageFollowsMagnitude : Prop :=
  ∀ (now : U32) (s : State), ∃ t, exec (.blkend now) s = .next t ∧
    let n : U32 := if s.lcnt.toNat < s.cfg.laN.toNat then s.lcnt + 1 else s.lcnt
    t.loud = fadd s.loud (fdiv (fsub t.mag s.loud) (fofInt n.toNat)) ∧
    ((t.setGains = s.setGains ∧ t.lcnt = n) ∨ (t.setGains ≠ s.setGains ∧ t.lcnt = 0))

/-- The band correction: none before the average is settled; then the step of the band, clamped; a change emits one SetGain
and clears LCNT, no change keeps it; a loud band is stamped even where the clamp cancels the change
(45_gain_controller.md R182, R183, R184). -/
def Obligations.GainLoopCorrectsByBand : Prop :=
  ∀ (now : U32) (s : State), ∃ t, exec (.blkend now) s = .next t ∧
    let n : U32 := if s.lcnt.toNat < s.cfg.laN.toNat then s.lcnt + 1 else s.lcnt
    let recent := s.loudSeen = true ∧ (now - s.lastloudt).toNat < s.cfg.gRecent.toNat
    let loudBand := fge t.loud s.cfg.gT1 = true ∨ fge t.loud s.cfg.gT2 = true
    (n ≠ s.cfg.laN → t.gain = s.gain ∧ t.setGains = s.setGains ∧ t.lcnt = n ∧ t.lastloudt = s.lastloudt ∧
      t.loudSeen = s.loudSeen) ∧
    (n = s.cfg.laN →
      (loudBand → t.lastloudt = now ∧ t.loudSeen = true) ∧
      (¬loudBand → t.lastloudt = s.lastloudt ∧ t.loudSeen = s.loudSeen) ∧
      ∃ target : Int,
        (fge t.loud s.cfg.gT1 = true → target = (s.gain.toNat : Int) - s.cfg.gD1) ∧
        (fge t.loud s.cfg.gT1 = false → fge t.loud s.cfg.gT2 = true → target = (s.gain.toNat : Int) - s.cfg.gD2) ∧
        (¬loudBand → fge t.loud s.cfg.gT3 = true → target = s.gain.toNat) ∧
        (¬loudBand → fge t.loud s.cfg.gT3 = false → recent → target = s.gain.toNat) ∧
        (¬loudBand → fge t.loud s.cfg.gT3 = false → ¬recent → flt t.loud s.cfg.gT4 = true →
          target = (s.gain.toNat : Int) + s.cfg.gU2) ∧
        (¬loudBand → fge t.loud s.cfg.gT3 = false → ¬recent → flt t.loud s.cfg.gT4 = false →
          target = (s.gain.toNat : Int) + s.cfg.gU1) ∧
        let g : Int := max (s.cfg.gainMin.toNat : Int) (min (s.cfg.gainMax.toNat : Int) target)
        (g ≠ s.gain.toNat → (t.gain.toNat : Int) = g ∧ t.setGains = s.setGains ++ [t.gain] ∧ t.lcnt = 0) ∧
        (g = s.gain.toNat → t.gain = s.gain ∧ t.setGains = s.setGains ∧ t.lcnt = n))

/-- At a constant unit the WPM estimate converges from 0 to c - 1 in at most 11 updates and stays; it does not decrease below
c, and from above c it decreases to c and stays (43_timing_classifier.md R141). -/
def Obligations.SpeedEstimateConverges : Prop :=
  ∀ (sym : Symbol) (h : U32), 1 ≤ unitMillis sym h → unitMillis sym h ≤ 1200 →
    let c := 1200 / unitMillis sym h
    (∀ (s : State) (k : Nat), s.wpm = 0 → 11 ≤ k → ((speedUpdate sym h)^[k] s).wpm.toNat = c - 1) ∧
    (∀ s : State, s.wpm.toNat < c → s.wpm.toNat ≤ (speedUpdate sym h s).wpm.toNat ∧
      (speedUpdate sym h s).wpm.toNat < c) ∧
    (∀ s : State, s.wpm.toNat = c → (speedUpdate sym h s).wpm.toNat = c) ∧
    (∀ s : State, c < s.wpm.toNat → c ≤ (speedUpdate sym h s).wpm.toNat ∧
      (speedUpdate sym h s).wpm.toNat < s.wpm.toNat)

/-! ## binary32 -/

/-- Rounding is to nearest, ties to even, with the infinity exactly from the midpoint above the largest finite value on
(00_scope.md R11; the rule names IEEE-754, whose facts are assumption 9). -/
def Obligations.RoundingIsNearestEven : Prop :=
  ∀ num den : Nat, 0 < den →
    let r := roundMag num den
    r ≤ infMag ∧ (r = infMag ↔ den * ((2 ^ 25 - 1) * 2 ^ 252) ≤ num) ∧
    (r < infMag → ∀ m < infMag,
      ((units r * den : Nat) - (num : Int)).natAbs ≤ ((units m * den : Nat) - (num : Int)).natAbs ∧
      (((units r * den : Nat) - (num : Int)).natAbs = ((units m * den : Nat) - (num : Int)).natAbs → m ≠ r →
        r % 2 = 0))

/-- Each operation on finite operands whose result is finite answers a binary32 nearest the exact result: no other finite
pattern is nearer. A square root is compared with the midpoint to the other pattern (00_scope.md R11; the rule names IEEE-754,
whose facts are assumption 9). Infinities, NaN, overflow and signs are OperationsOnSpecialValues's, ties are
OperationTiesRoundToEven's. -/
def Obligations.OperationsRoundExactResult : Prop :=
  ∀ a b x : F32, isFinite a = true → isFinite b = true → isFinite x = true →
    (isFinite (fadd a b) = true →
      (fval (fadd a b) - (fval a + fval b)).natAbs ≤ (fval x - (fval a + fval b)).natAbs) ∧
    (isFinite (fsub a b) = true →
      (fval (fsub a b) - (fval a - fval b)).natAbs ≤ (fval x - (fval a - fval b)).natAbs) ∧
    (isFinite (fmul a b) = true →
      (fval (fmul a b) * 2 ^ 149 - fval a * fval b).natAbs ≤ (fval x * 2 ^ 149 - fval a * fval b).natAbs) ∧
    (isZero b = false → isFinite (fdiv a b) = true →
      (fval (fdiv a b) * fval b - fval a * 2 ^ 149).natAbs ≤ (fval x * fval b - fval a * 2 ^ 149).natAbs) ∧
    (a.msb = false → 0 ≤ fval (fsqrt a) ∧
      (fval (fsqrt a) < fval x → 4 * (fval a * 2 ^ 149) ≤ (fval (fsqrt a) + fval x) ^ 2) ∧
      (0 ≤ fval x → fval x < fval (fsqrt a) → (fval (fsqrt a) + fval x) ^ 2 ≤ 4 * (fval a * 2 ^ 149)))

/-- Each of the five comparisons orders finite patterns as their values, both zeros equal; puts -inf below and +inf above every
other pattern that is no NaN, each equal to itself alone; and is false where an operand is NaN (00_scope.md R11; that the
standard orders subnormals, zeros and infinities so is assumption 9). -/
def Obligations.ComparisonsOrderValues : Prop :=
  (∀ a b : F32, isFinite a = true → isFinite b = true →
    (flt a b = true ↔ fval a < fval b) ∧ (fle a b = true ↔ fval a ≤ fval b) ∧ (fgt a b = true ↔ fval b < fval a) ∧
    (fge a b = true ↔ fval b ≤ fval a) ∧ (feq a b = true ↔ fval a = fval b)) ∧
  (∀ a b : F32, isNaN a = false → isNaN b = false → isInf a = true ∨ isInf b = true →
    (flt a b = true ↔ a ≠ b ∧ (a = 0xFF800000 ∨ b = 0x7F800000)) ∧
    (fle a b = true ↔ a = b ∨ a = 0xFF800000 ∨ b = 0x7F800000) ∧
    (fgt a b = true ↔ a ≠ b ∧ (a = 0x7F800000 ∨ b = 0xFF800000)) ∧
    (fge a b = true ↔ a = b ∨ a = 0x7F800000 ∨ b = 0xFF800000) ∧ (feq a b = true ↔ a = b)) ∧
  ∀ a b : F32, isNaN a = true ∨ isNaN b = true →
    flt a b = false ∧ fle a b = false ∧ fgt a b = false ∧ fge a b = false ∧ feq a b = false

/-- The operations beyond finite results: which operands give a NaN, what an infinite operand and a division by zero give, the
sign of a result, a zero result included, and overflow to the infinity from the midpoint above the largest finite value on
(00_scope.md R11; the rule names IEEE-754, whose facts are assumption 9). -/
def Obligations.OperationsOnSpecialValues : Prop :=
  let limit : Nat := (2 ^ 25 - 1) * 2 ^ 252
  (∀ a b : F32, isNaN (fadd a b) = true ↔
    isNaN a = true ∨ isNaN b = true ∨ (isInf a = true ∧ isInf b = true ∧ a.msb ≠ b.msb)) ∧
  (∀ a b : F32, isNaN (fsub a b) = true ↔
    isNaN a = true ∨ isNaN b = true ∨ (isInf a = true ∧ isInf b = true ∧ a.msb = b.msb)) ∧
  (∀ a b : F32, isNaN (fmul a b) = true ↔
    isNaN a = true ∨ isNaN b = true ∨ (isInf a = true ∧ isZero b = true) ∨ (isZero a = true ∧ isInf b = true)) ∧
  (∀ a b : F32, isNaN (fdiv a b) = true ↔
    isNaN a = true ∨ isNaN b = true ∨ (isInf a = true ∧ isInf b = true) ∨ (isZero a = true ∧ isZero b = true)) ∧
  (∀ a : F32, isNaN (fsqrt a) = true ↔ isNaN a = true ∨ (a.msb = true ∧ isZero a = false)) ∧
  (∀ a b : F32, isInf a = true → isFinite b = true → fadd a b = a ∧ fadd b a = a ∧ fsub a b = a) ∧
  (∀ a b : F32, isInf a = true → isInf b = true → (a.msb = b.msb → fadd a b = a) ∧ (a.msb ≠ b.msb → fsub a b = a)) ∧
  (∀ a b : F32, isNaN (fsub a b) = false → fsub a b = fadd a (b ^^^ 0x80000000)) ∧
  (∀ a b : F32, isNaN (fmul a b) = false → (fmul a b).msb = (a.msb != b.msb) ∧
    (isInf a = true ∨ isInf b = true → isInf (fmul a b) = true)) ∧
  (∀ a b : F32, isNaN (fdiv a b) = false → (fdiv a b).msb = (a.msb != b.msb) ∧
    (isInf a = true ∨ isZero b = true → isInf (fdiv a b) = true) ∧
    (isZero a = true ∨ isInf b = true → isZero (fdiv a b) = true)) ∧
  (fsqrt 0x7F800000 = 0x7F800000 ∧ fsqrt 0x00000000 = 0x00000000 ∧ fsqrt 0x80000000 = 0x80000000) ∧
  ∀ a b : F32, isFinite a = true → isFinite b = true →
    (fval a + fval b = 0 → isZero (fadd a b) = true ∧ (fadd a b).msb = (a.msb && b.msb)) ∧
    (fval a + fval b ≠ 0 → isZero (fadd a b) = false ∧ (fadd a b).msb = decide (fval a + fval b < 0)) ∧
    (isInf (fadd a b) = true ↔ limit ≤ (fval a + fval b).natAbs) ∧
    (isInf (fmul a b) = true ↔ limit * 2 ^ 149 ≤ (fval a * fval b).natAbs) ∧
    (isZero b = false → (isInf (fdiv a b) = true ↔ limit * (fval b).natAbs ≤ (fval a * 2 ^ 149).natAbs)) ∧
    (a.msb = false → isFinite (fsqrt a) = true ∧ (fsqrt a).msb = false)

/-- Where a finite result and another finite value are equally near the exact result, the result's last bit is 0; a root is
never the midpoint of two, so it has no ties (00_scope.md R11; the rule names IEEE-754, whose facts are assumption 9). -/
def Obligations.OperationTiesRoundToEven : Prop :=
  ∀ a b x : F32, isFinite a = true → isFinite b = true → isFinite x = true →
    (isFinite (fadd a b) = true → fval x ≠ fval (fadd a b) →
      (fval (fadd a b) - (fval a + fval b)).natAbs = (fval x - (fval a + fval b)).natAbs →
      (fadd a b).getLsbD 0 = false) ∧
    (isFinite (fsub a b) = true → fval x ≠ fval (fsub a b) →
      (fval (fsub a b) - (fval a - fval b)).natAbs = (fval x - (fval a - fval b)).natAbs →
      (fsub a b).getLsbD 0 = false) ∧
    (isFinite (fmul a b) = true → fval x ≠ fval (fmul a b) →
      (fval (fmul a b) * 2 ^ 149 - fval a * fval b).natAbs = (fval x * 2 ^ 149 - fval a * fval b).natAbs →
      (fmul a b).getLsbD 0 = false) ∧
    (isZero b = false → isFinite (fdiv a b) = true → fval x ≠ fval (fdiv a b) →
      (fval (fdiv a b) * fval b - fval a * 2 ^ 149).natAbs = (fval x * fval b - fval a * 2 ^ 149).natAbs →
      (fdiv a b).getLsbD 0 = false) ∧
    (a.msb = false → 0 ≤ fval x → fval x ≠ fval (fsqrt a) →
      (fval (fsqrt a) + fval x) ^ 2 ≠ 4 * (fval a * 2 ^ 149))

/-- A decimal literal `digits / 10^scale` assembles to the binary32 nearest its value, ties to even (30_encoding.md R79). That
the minus sign gives the sign bit of a zero too, and that a value from the midpoint above the largest finite value on gives
the infinity, is assumption 12; what nearest means of a binary32 is assumption 9. -/
def Obligations.FloatLiteralsAreNearest : Prop :=
  ∀ (neg : Bool) (digits scale : Nat),
    let v := floatLiteral (.decimal neg digits scale)
    let exact : Nat := digits * 2 ^ 149
    v.msb = neg ∧ isNaN v = false ∧ (isInf v = true ↔ 10 ^ scale * ((2 ^ 25 - 1) * 2 ^ 252) ≤ exact) ∧
    (isFinite v = true → ∀ x : F32, isFinite x = true →
      let value : Int := if neg then -(exact : Int) else exact
      (fval v * 10 ^ scale - value).natAbs ≤ (fval x * 10 ^ scale - value).natAbs ∧
      ((fval v * 10 ^ scale - value).natAbs = (fval x * 10 ^ scale - value).natAbs → fval x ≠ fval v →
        v.getLsbD 0 = false)) ∧
    floatLiteral (.inf neg) = if neg then 0xFF800000 else 0x7F800000

/-- The class and the value of a pattern, from its exponent field (bits 30:23) and fraction (bits 22:0), the value in units of
the least subnormal 2^-149; and `f32(n)`, exact for every integer of magnitude up to 2^24 (00_scope.md R11; the rule names
IEEE-754, whose facts are assumption 9). -/
def Obligations.PatternsHaveClassAndValue : Prop :=
  (∀ x : F32,
    let exponent := (x.extractLsb' 23 8).toNat
    let fraction := (x.extractLsb' 0 23).toNat
    let magnitude : Int := if exponent = 0 then fraction else (2 ^ 23 + fraction) * 2 ^ (exponent - 1)
    (isNaN x = true ↔ exponent = 255 ∧ fraction ≠ 0) ∧ (isInf x = true ↔ exponent = 255 ∧ fraction = 0) ∧
    (isFinite x = true ↔ exponent ≠ 255) ∧ (isZero x = true ↔ exponent = 0 ∧ fraction = 0) ∧
    (isFinite x = true → fval x = if x.getLsbD 31 = true then -magnitude else magnitude)) ∧
  ∀ n : Int, n.natAbs ≤ 2 ^ 24 →
    isFinite (fofInt n) = true ∧ fval (fofInt n) = n * 2 ^ 149 ∧ (fofInt n).getLsbD 31 = decide (n < 0)

/-- What a host that keeps its duties does (70_reset_and_hazards.md R224 to R227, R230; the duties are read as assumption 14
says). From reset, the first SAMPLE of a block comes after a read of NBS, a COEFF write, a GAIN write and a STATUS write that
clears the four sticky bits, in this order. From the first SAMPLE of a block to its BLKEND the host issues as many SAMPLEs
as NBS was at the first one, whatever it reads or writes in between. After a BLKEND or an NBMIN write that leaves NBS_CHG at
1, whatever NBS then holds, it reads NBS, writes COEFF after that read and clears NBS_CHG before the next first SAMPLE of a
block. After it has cleared CTRL.SCAN it issues no SAMPLE, in a block or not, before a TRESET, and before a COEFF write that
follows the last SAMPLE of the scan. -/
def Obligations.DutifulHostBootsFillsResizesAndLeavesScans : Prop :=
  let isSample (i : Instr) : Bool := match i with
    | .sample _ => true
    | _ => false
  let isBlkend (i : Instr) : Bool := match i with
    | .blkend _ => true
    | _ => false
  (∀ (s : State) (before : List Instr) (x : I16),
    dutiful Duty.start s (before ++ [.sample x]) = true → (afterAll before s).scnt = 0 →
    ∃ (c : F32) (g v : U32), isNaN c = false ∧ v &&& 0x78 = 0x78 ∧
      [.rd 0x12, .wr 0x02 c, .wr 0x08 g, .wr 0x01 v].Sublist before) ∧
  (∀ (d : Duty) (s : State) (before within : List Instr) (x : I16) (now : U32),
    dutiful d s (before ++ .sample x :: within ++ [.blkend now]) = true →
    (afterAll before s).scnt = 0 → within.any isBlkend = false →
    within.countP isSample + 1 = (afterAll before s).nbs.toNat) ∧
  (∀ (d : Duty) (s : State) (before between : List Instr) (i : Instr) (x : I16),
    (∃ now, i = .blkend now) ∨ (∃ m, i = .wr 0x07 m) →
    dutiful d s (before ++ i :: between ++ [.sample x]) = true →
    (afterAll (before ++ [i]) s).nbsChg = true → (afterAll (before ++ i :: between) s).scnt = 0 →
    ∃ (c : F32) (v : U32), isNaN c = false ∧ v.getLsbD 6 = true ∧
      [.rd 0x12, .wr 0x02 c].Sublist between ∧ .wr 0x01 v ∈ between ∧
      (afterAll (before ++ i :: between) s).nbsChg = false) ∧
  (∀ (d : Duty) (s : State) (before between : List Instr) (ctrl : U32) (x : I16),
    dutiful d s (before ++ .wr 0x00 ctrl :: between ++ [.sample x]) = true →
    (afterAll before s).scan = true → ctrl.getLsbD 0 = false → ∃ now, .treset now ∈ between) ∧
  ∀ (d : Duty) (s : State) (before after between : List Instr) (y x : I16) (ctrl : U32),
    dutiful d s (before ++ .sample y :: after ++ .wr 0x00 ctrl :: between ++ [.sample x]) = true →
    (afterAll (before ++ .sample y :: after) s).scan = true → ctrl.getLsbD 0 = false → after.any isSample = false →
    ∃ c : F32, isNaN c = false ∧ .wr 0x02 c ∈ after ++ between
end

