-- ==== Sys2Proof/Laws/Encoding.lean ====
section
/-! SUPPORT. The fields of an assembled word, the bytes of a word, and what the decoder can answer. -/
namespace Sys2Proof

/-- Every Instr is well-formed: the operands' types hold exactly the ranges of 30_encoding.md R72 and R73. -/
theorem Laws.wellFormed_all (i : Instr) : i.wellFormed = true := by
  cases i with
  | nop => rfl
  | sample x =>
    have h1 := BitVec.le_toInt x
    have h2 := BitVec.toInt_lt (x := x)
    simp only [Instr.wellFormed, Bool.and_eq_true, decide_eq_true_eq]
    omega
  | blkend now => simpa [Instr.wellFormed] using now.isLt
  | wr a v =>
    simp only [Instr.wellFormed, Bool.and_eq_true, decide_eq_true_eq]
    exact ⟨Nat.le_of_lt_succ a.isLt, v.isLt⟩
  | rd a => simpa [Instr.wellFormed] using Nat.le_of_lt_succ a.isLt
  | treset now => simpa [Instr.wellFormed] using now.isLt

namespace Machine

/-! ## Fields of a word -/

@[simp] theorem opField_commandWord (op a : Byte) (d : U32) : opField (commandWord op a d) = op := by
  simp only [opField, commandWord]; ext i hi
  simp only [BitVec.getElem_extractLsb', BitVec.getLsbD_append]
  rw [if_neg (by omega), if_neg (by omega), BitVec.getLsbD_eq_getElem (by omega)]
  congr 1; omega

@[simp] theorem addrField_commandWord (op a : Byte) (d : U32) : addrField (commandWord op a d) = a := by
  simp only [addrField, commandWord]; ext i hi
  simp only [BitVec.getElem_extractLsb', BitVec.getLsbD_append]
  rw [if_neg (by omega), if_pos (by omega), BitVec.getLsbD_eq_getElem (by omega)]
  congr 1; omega

@[simp] theorem dataField_commandWord (op a : Byte) (d : U32) : dataField (commandWord op a d) = d := by
  simp only [dataField, commandWord]; ext i hi
  simp only [BitVec.getElem_extractLsb', BitVec.getLsbD_append]
  rw [if_pos (by omega), BitVec.getLsbD_eq_getElem (by omega)]
  congr 1; omega

@[simp] theorem sampleField_sampleData (x : I16) : sampleField (sampleData x) = x := by
  simp only [sampleField, sampleData]; ext i hi
  simp only [BitVec.getElem_extractLsb']
  rw [BitVec.getLsbD_append, if_pos (by omega), BitVec.getLsbD_eq_getElem (by omega)]
  congr 1; omega

/-- A word is made of its three fields. -/
theorem commandWord_fields (w : CommandWord) : commandWord (opField w) (addrField w) (dataField w) = w := by
  simp only [commandWord, opField, addrField, dataField]; ext i hi
  simp only [BitVec.getElem_append, BitVec.getElem_extractLsb']
  repeat' split
  all_goals (rw [BitVec.getElem_eq_testBit_toNat, BitVec.getLsbD]; congr 1; omega)

end Machine

/-! ## Bytes of a word -/

/-- A word is read back from its bytes in transport order. -/
theorem wordOfBytes_byteOfWord (w : CommandWord) :
    wordOfBytes (byteOfWord w 0) (byteOfWord w 1) (byteOfWord w 2) (byteOfWord w 3) (byteOfWord w 4)
      (byteOfWord w 5) = w := by
  simp only [wordOfBytes, byteOfWord]; ext i hi
  simp only [BitVec.getElem_append, BitVec.getElem_extractLsb']
  repeat' split
  all_goals (rw [BitVec.getElem_eq_testBit_toNat, BitVec.getLsbD]; congr 1; omega)

/-! ## The decoder -/

/-- Everything the decoder can answer, by the word's OP. -/
theorem decode_cases (w : CommandWord) :
    ((Machine.opField w).toNat = 0 ∧ decode w = .ok .nop) ∨
    ((Machine.opField w).toNat = 1 ∧ decode w = .ok (.sample (Machine.sampleField (Machine.dataField w)))) ∨
    ((Machine.opField w).toNat = 2 ∧ decode w = .ok (.blkend (Machine.dataField w))) ∨
    ((Machine.opField w).toNat = 3 ∧ decode w = .ok (.wr (Machine.addrField w) (Machine.dataField w))) ∨
    ((Machine.opField w).toNat = 4 ∧ decode w = .ok (.rd (Machine.addrField w))) ∨
    ((Machine.opField w).toNat = 5 ∧ decode w = .ok (.treset (Machine.dataField w))) ∨
    (6 ≤ (Machine.opField w).toNat ∧ decode w = .error (.illegalOpcode (Machine.opField w))) := by
  unfold decode
  simp only
  split <;> simp_all
  omega

end Sys2Proof
end

