-- ==== Sys2Proof/Laws/Float.lean ====
section
/-! SUPPORT. What the binary32 operations can answer: the fields of a packed pattern, that rounding never exceeds the
infinity, which classes the operations deliver, and the order on patterns. -/
namespace Sys2Proof.Machine

/-! ## Patterns -/

theorem fmag_lt (x : F32) : fmag x < signBit := Nat.mod_lt _ (by decide)

theorem toNat_eq_sign_fmag (x : F32) : x.toNat = (if x.msb then signBit else 0) + fmag x := by
  have hx := x.isLt
  have hm : x.msb = decide (2 ^ 31 ≤ x.toNat) := BitVec.msb_eq_decide x
  rw [hm]
  unfold fmag signBit
  by_cases h : 2 ^ 31 ≤ x.toNat
  · simp only [h, decide_true, if_true]; omega
  · simp only [h, decide_false]; simp only [Bool.false_eq_true, if_false]; omega

theorem toNat_fpack {neg : Bool} {m : Nat} (h : m < signBit) :
    (fpack neg m).toNat = (if neg then signBit else 0) + m := by
  unfold fpack
  cases neg <;> (simp [signBit] at *; omega)

@[simp] theorem fmag_fpack {neg : Bool} {m : Nat} (h : m < signBit) : fmag (fpack neg m) = m := by
  unfold fmag
  rw [toNat_fpack h]
  cases neg <;> simp [signBit] at * <;> omega

@[simp] theorem msb_fpack {neg : Bool} {m : Nat} (h : m < signBit) : (fpack neg m).msb = neg := by
  rw [BitVec.msb_eq_decide, toNat_fpack h]
  unfold signBit at *
  cases neg
  · simp only [Bool.false_eq_true, if_false, decide_eq_false_iff_not]; omega
  · simp only [if_true, decide_eq_true_eq]; omega

theorem fpack_msb_fmag (x : F32) : fpack x.msb (fmag x) = x := by
  apply BitVec.eq_of_toNat_eq
  rw [toNat_fpack (fmag_lt x), toNat_eq_sign_fmag x]

/-! ## Rounding -/

theorem roundMag_le_inf (num den : Nat) : roundMag num den ≤ infMag := Nat.min_le_right _ _

theorem roundMag_lt_sign (num den : Nat) : roundMag num den < signBit :=
  lt_of_le_of_lt (roundMag_le_inf num den) (by decide)

@[simp] theorem isNaN_fpack_roundMag (neg : Bool) (num den : Nat) : isNaN (fpack neg (roundMag num den)) = false := by
  simp only [isNaN, fmag_fpack (roundMag_lt_sign num den)]
  simpa using roundMag_le_inf num den

@[simp] theorem msb_fpack_roundMag (neg : Bool) (num den : Nat) : (fpack neg (roundMag num den)).msb = neg :=
  msb_fpack (roundMag_lt_sign num den)

theorem isNaN_fpack_above {neg : Bool} {m : Nat} (h1 : infMag < m) (h2 : m < signBit) : isNaN (fpack neg m) = true := by
  simp only [isNaN, fmag_fpack h2, decide_eq_true_eq, h1]

/-- The free NaN is a NaN, whatever the free value is. -/
@[simp] theorem isNaN_nanPattern (op : FloatOp) (a b : F32) : isNaN (nanPattern op a b) = true := by
  unfold nanPattern
  have hlt : (Config.freeNaN op a b).toNat % 0x800000 < 0x800000 := Nat.mod_lt _ (by norm_num)
  generalize (Config.freeNaN op a b).toNat % 0x800000 = f at hlt ⊢
  generalize (Config.freeNaN op a b).msb = n
  apply isNaN_fpack_above
  · split <;> omega
  · unfold infMag signBit
    split <;> omega

/-! ## Classes of results -/

theorem fsqrt_nonneg {a : F32} (hn : isNaN a = false) (hs : a.msb = false) :
    isNaN (fsqrt a) = false ∧ (fsqrt a).msb = false := by
  unfold fsqrt froot
  simp only [hn, hs, Bool.false_eq_true, if_false]
  split
  · exact ⟨hn, hs⟩
  · split
    · exact ⟨hn, hs⟩
    · simp only [Option.getD_some]
      split
      · exact ⟨isNaN_fpack_roundMag _ _ _, msb_fpack_roundMag _ _ _⟩
      · exact ⟨isNaN_fpack_roundMag _ _ _, msb_fpack_roundMag _ _ _⟩

/-! ## The order -/

theorem fge_self {x : F32} (h : isNaN x = false) : fge x x = true := by
  simp [fge, fle, h]

theorem fge_not_nan {a b : F32} (h : fge a b = true) : isNaN a = false ∧ isNaN b = false := by
  simp only [fge, fle, Bool.and_eq_true, Bool.not_eq_true', decide_eq_true_eq] at h
  exact ⟨h.1.2, h.1.1⟩

theorem isNaN_of_isFinite {x : F32} (h : isFinite x = true) : isNaN x = false := by
  simp only [isFinite, isNaN, decide_eq_true_eq, decide_eq_false_iff_not] at *
  omega

/-- Clamping to bounds that are no NaN leaves no NaN and stays between the bounds. -/
theorem fclamp_between {lo hi v : F32} (hv : isNaN v = false) (hb : fle lo hi = true) :
    isNaN (fclamp lo hi v) = false ∧ fle lo (fclamp lo hi v) = true ∧ fle (fclamp lo hi v) hi = true := by
  simp only [fle, Bool.and_eq_true, Bool.not_eq_true', decide_eq_true_eq] at hb
  obtain ⟨⟨hlo, hhi⟩, hle⟩ := hb
  unfold fclamp
  split
  · simp [fle, hlo, hhi, hle]
  · rename_i h1
    split
    · simp [fle, hlo, hhi, hle]
    · rename_i h2
      simp only [flt, hv, hlo, hhi, Bool.not_false, Bool.true_and, decide_eq_true_eq, not_lt] at h1 h2
      simp [fle, hv, hlo, hhi, h1, h2]

/-- Between -2.0 and +2.0 there is no infinity. -/
theorem isFinite_of_coeff_range {x : F32} (h1 : fle coeffMin x = true) (h2 : fle x coeffMax = true) :
    isFinite x = true := by
  have k1 : fkey coeffMin = -1073741824 := by decide
  have k2 : fkey coeffMax = 1073741824 := by decide
  simp only [fle, Bool.and_eq_true, Bool.not_eq_true', decide_eq_true_eq, k1, k2] at h1 h2
  simp only [isFinite, decide_eq_true_eq]
  have a1 := h1.2
  have a2 := h2.2
  unfold fkey at a1 a2
  unfold infMag
  cases hm : x.msb with
  | true => simp only [hm, if_true] at a1; omega
  | false => simp only [hm, Bool.false_eq_true, if_false] at a2; omega

/-! ## Exponent and fraction -/

/-- A magnitude from the two fields of a pattern, the exponent in bits 30:23 and the fraction in bits 22:0. -/
theorem fmag_fields (x : F32) :
    fmag x = (x.extractLsb' 23 8).toNat * 2 ^ 23 + (x.extractLsb' 0 23).toNat := by
  simp only [fmag, signBit, BitVec.extractLsb'_toNat, Nat.shiftRight_eq_div_pow]
  omega

/-- The value of a magnitude from its two fields. -/
theorem units_fields (e : Nat) {f : Nat} (hf : f < 2 ^ 23) :
    units (e * 2 ^ 23 + f) = if e = 0 then f else (2 ^ 23 + f) * 2 ^ (e - 1) := by
  have hmod : (e * 2 ^ 23 + f) % 0x800000 = f := by omega
  have hdiv : (e * 2 ^ 23 + f) / 0x800000 = e := by omega
  unfold units
  rw [hmod, hdiv]
  split <;> split <;> first | omega | rfl

end Sys2Proof.Machine
end

