-- ==== Sys2Proof/Laws/PerInstr.lean ====
section
/-! SUPPORT. Statements for all instructions, one lemma per constructor. -/
namespace Sys2Proof.Laws

/-- The encoded word of a command matches its row of spec/opcode_table.json: its OP field is the row's opcode
(30_encoding.md R74). -/
def OpcodeSelects.Statement (i : Instr) : Prop := Machine.opField (encode i) = opcode i

theorem OpcodeSelects.nop : OpcodeSelects.Statement .nop := Machine.opField_commandWord _ _ _

theorem OpcodeSelects.sample (x : I16) : OpcodeSelects.Statement (.sample x) := Machine.opField_commandWord _ _ _

theorem OpcodeSelects.blkend (now : U32) : OpcodeSelects.Statement (.blkend now) := Machine.opField_commandWord _ _ _

theorem OpcodeSelects.wr (a : Byte) (v : U32) : OpcodeSelects.Statement (.wr a v) := Machine.opField_commandWord _ _ _

theorem OpcodeSelects.rd (a : Byte) : OpcodeSelects.Statement (.rd a) := Machine.opField_commandWord _ _ _

theorem OpcodeSelects.treset (now : U32) : OpcodeSelects.Statement (.treset now) := Machine.opField_commandWord _ _ _

end Sys2Proof.Laws
end

