-- ==== Sys2Proof/Laws/Safety.lean ====
section
/-! SUPPORT. Runs of two sequences one after the other, and what a command does to the host's duties. -/
namespace Sys2Proof.Safety

open Sys2Proof.Machine

theorem afterAll_append (xs ys : List Instr) (s : State) : afterAll (xs ++ ys) s = afterAll ys (afterAll xs s) := by
  induction xs generalizing s with
  | nil => rfl
  | cons i is ih => exact ih (after i s)

theorem nextAll_append (d : Duty) (s : State) (xs ys : List Instr) :
    d.nextAll s (xs ++ ys) = (d.nextAll s xs).nextAll (afterAll xs s) ys := by
  induction xs generalizing d s with
  | nil => rfl
  | cons i is ih => exact ih (d.next s i) (after i s)

theorem dutiful_append (d : Duty) (s : State) (xs ys : List Instr) :
    dutiful d s (xs ++ ys) = (dutiful d s xs && dutiful (d.nextAll s xs) (afterAll xs s) ys) := by
  induction xs generalizing d s with
  | nil => rfl
  | cons i is ih =>
    simp only [List.cons_append, dutiful, afterAll, Duty.nextAll, ih, Bool.and_assoc]

/-- A resize forgets the size and the tuning, or nothing; what the open block, the scan and the boot need stays. -/
theorem resized_cases (d : Duty) (t : State) :
    (t.nbsChg = true ∧ d.resized t = { d with sizeRead := none, tunedFor := none }) ∨
    (t.nbsChg = false ∧ d.resized t = d) := by
  unfold Duty.resized
  cases t.nbsChg <;> simp

/-- A command after which the host must answer NBS_CHG leaves it with no size read and no tuning that counts. -/
theorem next_of_resize (d : Duty) (s : State) (i : Instr) (hi : (∃ now, i = .blkend now) ∨ ∃ v, i = .wr (regIndex .nbmin) v)
    (h : (after i s).nbsChg = true) : (d.next s i).sizeRead = none ∧ (d.next s i).tunedFor = none := by
  have hr : regOfIndex (regIndex .nbmin) = some .nbmin := by decide
  obtain ⟨now, rfl⟩ | ⟨v, rfl⟩ := hi
  · simp [Duty.next, Duty.resized, h]
  · simp [Duty.next, hr, Duty.nextWr, Duty.resized, h]

/-- What a WR does to the duties of a scan: none but a WR of a number to COEFF clears `toneStale`, none clears
`timingStale`. -/
theorem nextWr_stale (d : Duty) (s t : State) (v : U32) (r : Reg) :
    (d.timingStale = true → (d.nextWr s t v r).timingStale = true) ∧
    ((r = .coeff → isNaN v = true) → d.tunedSinceSample = false → d.toneStale = true →
      (d.nextWr s t v r).toneStale = true ∧ (d.nextWr s t v r).tunedSinceSample = false) := by
  cases r with
  | nbmin => obtain ⟨-, hr⟩ | ⟨-, hr⟩ := resized_cases d t <;> simp_all [Duty.nextWr]
  | coeff | ctrl | gain | status => simp only [Duty.nextWr]; split <;> simp_all
  | _ => simp_all [Duty.nextWr]

/-- A command sets the size read or the tuning only as a RD of NBS at a boundary or a WR of a number to COEFF does. -/
theorem next_sizeRead_tunedFor (d : Duty) (s : State) (i : Instr) :
    ((d.next s i).sizeRead = d.sizeRead ∨ (d.next s i).sizeRead = none ∨
      (i = .rd (regIndex .nbs) ∧ s.scnt = 0 ∧ (d.next s i).sizeRead = some s.nbs)) ∧
    ((d.next s i).tunedFor = d.tunedFor ∨ (d.next s i).tunedFor = none ∨
      ((∃ a v, i = .wr a v ∧ regOfIndex a = some .coeff ∧ isNaN v = false) ∧ (d.next s i).tunedFor = d.sizeRead)) := by
  cases i with
  | blkend now =>
    obtain ⟨-, hr⟩ | ⟨-, hr⟩ := resized_cases d (after (.blkend now) s) <;> simp [Duty.next, hr]
  | rd a => simp only [Duty.next]; split <;> simp_all
  | wr a v =>
    simp only [Duty.next]
    split
    · rename_i r hr
      cases r with
      | nbmin => obtain ⟨-, hn⟩ | ⟨-, hn⟩ := resized_cases d (after (.wr a v) s) <;> simp [Duty.nextWr, hn]
      | coeff => cases hv : isNaN v <;> simp_all [Duty.nextWr]
      | ctrl | gain | status => simp only [Duty.nextWr]; split <;> simp
      | _ => simp [Duty.nextWr]
    · simp
  | _ => simp [Duty.next]

/-- The length of the open block does not change before its BLKEND. -/
theorem next_blockSize (d : Duty) (s : State) (i : Instr) (h : s.scnt ≠ 0) : (d.next s i).blockSize = d.blockSize := by
  cases i with
  | sample x => simp only [Duty.next, if_neg h]
  | blkend now => obtain ⟨-, hr⟩ | ⟨-, hr⟩ := resized_cases d (after (.blkend now) s) <;> simp [Duty.next, hr]
  | rd a => simp only [Duty.next]; split <;> rfl
  | wr a v =>
    simp only [Duty.next]
    split
    · rename_i r _
      cases r with
      | nbmin => obtain ⟨-, hr⟩ | ⟨-, hr⟩ := resized_cases d (after (.wr a v) s) <;> simp [Duty.nextWr, hr]
      | coeff | ctrl | gain | status => simp only [Duty.nextWr]; split <;> rfl
      | _ => rfl
    · rfl
  | _ => rfl

end Sys2Proof.Safety
end

