-- ==== Sys2Proof/Laws/State.lean ====
section
/-! SUPPORT. One lemma per field per update: what each named update of the state leaves alone and what it writes, so that
no later proof unfolds a record update. -/
namespace Sys2Proof.Machine

/-! ## flag (60_exceptions.md R207) -/

@[simp] theorem State.flag_scan (s : State) (e : ErrorBit) : (s.flag e).scan = s.scan := by cases e <;> rfl
@[simp] theorem State.flag_autotune (s : State) (e : ErrorBit) : (s.flag e).autotune = s.autotune := by cases e <;> rfl
@[simp] theorem State.flag_diag (s : State) (e : ErrorBit) : (s.flag e).diag = s.diag := by cases e <;> rfl
@[simp] theorem State.flag_raw (s : State) (e : ErrorBit) : (s.flag e).raw = s.raw := by cases e <;> rfl
@[simp] theorem State.flag_filt (s : State) (e : ErrorBit) : (s.flag e).filt = s.filt := by cases e <;> rfl
@[simp] theorem State.flag_nbsChg (s : State) (e : ErrorBit) : (s.flag e).nbsChg = s.nbsChg := by cases e <;> rfl
@[simp] theorem State.flag_stallDone (s : State) (e : ErrorBit) : (s.flag e).stallDone = s.stallDone := by cases e <;> rfl
@[simp] theorem State.flag_lastSpace (s : State) (e : ErrorBit) : (s.flag e).lastSpace = s.lastSpace := by cases e <;> rfl
@[simp] theorem State.flag_loudSeen (s : State) (e : ErrorBit) : (s.flag e).loudSeen = s.loudSeen := by cases e <;> rfl
@[simp] theorem State.flag_prevRaw (s : State) (e : ErrorBit) : (s.flag e).prevRaw = s.prevRaw := by cases e <;> rfl
@[simp] theorem State.flag_prevFilt (s : State) (e : ErrorBit) : (s.flag e).prevFilt = s.prevFilt := by cases e <;> rfl
@[simp] theorem State.flag_coeff (s : State) (e : ErrorBit) : (s.flag e).coeff = s.coeff := by cases e <;> rfl
@[simp] theorem State.flag_tfloor (s : State) (e : ErrorBit) : (s.flag e).tfloor = s.tfloor := by cases e <;> rfl
@[simp] theorem State.flag_react (s : State) (e : ErrorBit) : (s.flag e).react = s.react := by cases e <;> rfl
@[simp] theorem State.flag_hold (s : State) (e : ErrorBit) : (s.flag e).hold = s.hold := by cases e <;> rfl
@[simp] theorem State.flag_sf10 (s : State) (e : ErrorBit) : (s.flag e).sf10 = s.sf10 := by cases e <;> rfl
@[simp] theorem State.flag_nbmin (s : State) (e : ErrorBit) : (s.flag e).nbmin = s.nbmin := by cases e <;> rfl
@[simp] theorem State.flag_gain (s : State) (e : ErrorBit) : (s.flag e).gain = s.gain := by cases e <;> rfl
@[simp] theorem State.flag_mag (s : State) (e : ErrorBit) : (s.flag e).mag = s.mag := by cases e <;> rfl
@[simp] theorem State.flag_thr (s : State) (e : ErrorBit) : (s.flag e).thr = s.thr := by cases e <;> rfl
@[simp] theorem State.flag_loud (s : State) (e : ErrorBit) : (s.flag e).loud = s.loud := by cases e <;> rfl
@[simp] theorem State.flag_lcnt (s : State) (e : ErrorBit) : (s.flag e).lcnt = s.lcnt := by cases e <;> rfl
@[simp] theorem State.flag_q1 (s : State) (e : ErrorBit) : (s.flag e).q1 = s.q1 := by cases e <;> rfl
@[simp] theorem State.flag_q2 (s : State) (e : ErrorBit) : (s.flag e).q2 = s.q2 := by cases e <;> rfl
@[simp] theorem State.flag_scnt (s : State) (e : ErrorBit) : (s.flag e).scnt = s.scnt := by cases e <;> rfl
@[simp] theorem State.flag_unit (s : State) (e : ErrorBit) : (s.flag e).unit = s.unit := by cases e <;> rfl
@[simp] theorem State.flag_wpm (s : State) (e : ErrorBit) : (s.flag e).wpm = s.wpm := by cases e <;> rfl
@[simp] theorem State.flag_nbs (s : State) (e : ErrorBit) : (s.flag e).nbs = s.nbs := by cases e <;> rfl
@[simp] theorem State.flag_highdur (s : State) (e : ErrorBit) : (s.flag e).highdur = s.highdur := by cases e <;> rfl
@[simp] theorem State.flag_lowdur (s : State) (e : ErrorBit) : (s.flag e).lowdur = s.lowdur := by cases e <;> rfl
@[simp] theorem State.flag_highstart (s : State) (e : ErrorBit) : (s.flag e).highstart = s.highstart := by cases e <;> rfl
@[simp] theorem State.flag_lowstart (s : State) (e : ErrorBit) : (s.flag e).lowstart = s.lowstart := by cases e <;> rfl
@[simp] theorem State.flag_lastrawt (s : State) (e : ErrorBit) : (s.flag e).lastrawt = s.lastrawt := by cases e <;> rfl
@[simp] theorem State.flag_lastloudt (s : State) (e : ErrorBit) : (s.flag e).lastloudt = s.lastloudt := by cases e <;> rfl
@[simp] theorem State.flag_code (s : State) (e : ErrorBit) : (s.flag e).code = s.code := by cases e <;> rfl
@[simp] theorem State.flag_dur (s : State) (e : ErrorBit) : (s.flag e).dur = s.dur := by cases e <;> rfl
@[simp] theorem State.flag_rst (s : State) (e : ErrorBit) : (s.flag e).rst = s.rst := by cases e <;> rfl
@[simp] theorem State.flag_port (s : State) (e : ErrorBit) : (s.flag e).port = s.port := by cases e <;> rfl
@[simp] theorem State.flag_events (s : State) (e : ErrorBit) : (s.flag e).events = s.events := by cases e <;> rfl
@[simp] theorem State.flag_setGains (s : State) (e : ErrorBit) : (s.flag e).setGains = s.setGains := by cases e <;> rfl
@[simp] theorem State.flag_responses (s : State) (e : ErrorBit) : (s.flag e).responses = s.responses := by cases e <;> rfl
@[simp] theorem State.flag_cfg (s : State) (e : ErrorBit) : (s.flag e).cfg = s.cfg := by cases e <;> rfl
@[simp] theorem State.flag_errCmd (s : State) (e : ErrorBit) : (s.flag e).errCmd = (s.errCmd || decide (e = .cmd)) := by cases e <;> simp [State.flag]
@[simp] theorem State.flag_errHaz (s : State) (e : ErrorBit) : (s.flag e).errHaz = (s.errHaz || decide (e = .haz)) := by cases e <;> simp [State.flag]
@[simp] theorem State.flag_errNum (s : State) (e : ErrorBit) : (s.flag e).errNum = (s.errNum || decide (e = .num)) := by cases e <;> simp [State.flag]
@[simp] theorem State.flag_faultMark (s : State) (e : ErrorBit) : (s.flag e).faultMark = true := by cases e <;> rfl

/-! ## clearSticky (10_state.md R23) -/

@[simp] theorem State.clearSticky_scan (s : State) (v : U32) : (s.clearSticky v).scan = s.scan := rfl
@[simp] theorem State.clearSticky_autotune (s : State) (v : U32) : (s.clearSticky v).autotune = s.autotune := rfl
@[simp] theorem State.clearSticky_diag (s : State) (v : U32) : (s.clearSticky v).diag = s.diag := rfl
@[simp] theorem State.clearSticky_raw (s : State) (v : U32) : (s.clearSticky v).raw = s.raw := rfl
@[simp] theorem State.clearSticky_filt (s : State) (v : U32) : (s.clearSticky v).filt = s.filt := rfl
@[simp] theorem State.clearSticky_stallDone (s : State) (v : U32) : (s.clearSticky v).stallDone = s.stallDone := rfl
@[simp] theorem State.clearSticky_lastSpace (s : State) (v : U32) : (s.clearSticky v).lastSpace = s.lastSpace := rfl
@[simp] theorem State.clearSticky_loudSeen (s : State) (v : U32) : (s.clearSticky v).loudSeen = s.loudSeen := rfl
@[simp] theorem State.clearSticky_prevRaw (s : State) (v : U32) : (s.clearSticky v).prevRaw = s.prevRaw := rfl
@[simp] theorem State.clearSticky_prevFilt (s : State) (v : U32) : (s.clearSticky v).prevFilt = s.prevFilt := rfl
@[simp] theorem State.clearSticky_coeff (s : State) (v : U32) : (s.clearSticky v).coeff = s.coeff := rfl
@[simp] theorem State.clearSticky_tfloor (s : State) (v : U32) : (s.clearSticky v).tfloor = s.tfloor := rfl
@[simp] theorem State.clearSticky_react (s : State) (v : U32) : (s.clearSticky v).react = s.react := rfl
@[simp] theorem State.clearSticky_hold (s : State) (v : U32) : (s.clearSticky v).hold = s.hold := rfl
@[simp] theorem State.clearSticky_sf10 (s : State) (v : U32) : (s.clearSticky v).sf10 = s.sf10 := rfl
@[simp] theorem State.clearSticky_nbmin (s : State) (v : U32) : (s.clearSticky v).nbmin = s.nbmin := rfl
@[simp] theorem State.clearSticky_gain (s : State) (v : U32) : (s.clearSticky v).gain = s.gain := rfl
@[simp] theorem State.clearSticky_mag (s : State) (v : U32) : (s.clearSticky v).mag = s.mag := rfl
@[simp] theorem State.clearSticky_thr (s : State) (v : U32) : (s.clearSticky v).thr = s.thr := rfl
@[simp] theorem State.clearSticky_loud (s : State) (v : U32) : (s.clearSticky v).loud = s.loud := rfl
@[simp] theorem State.clearSticky_lcnt (s : State) (v : U32) : (s.clearSticky v).lcnt = s.lcnt := rfl
@[simp] theorem State.clearSticky_q1 (s : State) (v : U32) : (s.clearSticky v).q1 = s.q1 := rfl
@[simp] theorem State.clearSticky_q2 (s : State) (v : U32) : (s.clearSticky v).q2 = s.q2 := rfl
@[simp] theorem State.clearSticky_scnt (s : State) (v : U32) : (s.clearSticky v).scnt = s.scnt := rfl
@[simp] theorem State.clearSticky_unit (s : State) (v : U32) : (s.clearSticky v).unit = s.unit := rfl
@[simp] theorem State.clearSticky_wpm (s : State) (v : U32) : (s.clearSticky v).wpm = s.wpm := rfl
@[simp] theorem State.clearSticky_nbs (s : State) (v : U32) : (s.clearSticky v).nbs = s.nbs := rfl
@[simp] theorem State.clearSticky_highdur (s : State) (v : U32) : (s.clearSticky v).highdur = s.highdur := rfl
@[simp] theorem State.clearSticky_lowdur (s : State) (v : U32) : (s.clearSticky v).lowdur = s.lowdur := rfl
@[simp] theorem State.clearSticky_highstart (s : State) (v : U32) : (s.clearSticky v).highstart = s.highstart := rfl
@[simp] theorem State.clearSticky_lowstart (s : State) (v : U32) : (s.clearSticky v).lowstart = s.lowstart := rfl
@[simp] theorem State.clearSticky_lastrawt (s : State) (v : U32) : (s.clearSticky v).lastrawt = s.lastrawt := rfl
@[simp] theorem State.clearSticky_lastloudt (s : State) (v : U32) : (s.clearSticky v).lastloudt = s.lastloudt := rfl
@[simp] theorem State.clearSticky_code (s : State) (v : U32) : (s.clearSticky v).code = s.code := rfl
@[simp] theorem State.clearSticky_dur (s : State) (v : U32) : (s.clearSticky v).dur = s.dur := rfl
@[simp] theorem State.clearSticky_rst (s : State) (v : U32) : (s.clearSticky v).rst = s.rst := rfl
@[simp] theorem State.clearSticky_port (s : State) (v : U32) : (s.clearSticky v).port = s.port := rfl
@[simp] theorem State.clearSticky_faultMark (s : State) (v : U32) : (s.clearSticky v).faultMark = s.faultMark := rfl
@[simp] theorem State.clearSticky_events (s : State) (v : U32) : (s.clearSticky v).events = s.events := rfl
@[simp] theorem State.clearSticky_setGains (s : State) (v : U32) : (s.clearSticky v).setGains = s.setGains := rfl
@[simp] theorem State.clearSticky_responses (s : State) (v : U32) : (s.clearSticky v).responses = s.responses := rfl
@[simp] theorem State.clearSticky_cfg (s : State) (v : U32) : (s.clearSticky v).cfg = s.cfg := rfl
@[simp] theorem State.clearSticky_errCmd (s : State) (v : U32) : (s.clearSticky v).errCmd = (s.errCmd && !v.getLsbD 3) := rfl
@[simp] theorem State.clearSticky_errHaz (s : State) (v : U32) : (s.clearSticky v).errHaz = (s.errHaz && !v.getLsbD 4) := rfl
@[simp] theorem State.clearSticky_errNum (s : State) (v : U32) : (s.clearSticky v).errNum = (s.errNum && !v.getLsbD 5) := rfl
@[simp] theorem State.clearSticky_nbsChg (s : State) (v : U32) : (s.clearSticky v).nbsChg = (s.nbsChg && !v.getLsbD 6) := rfl

/-! ## writeCtrl (10_state.md R22) -/

@[simp] theorem State.writeCtrl_raw (s : State) (v : U32) : (s.writeCtrl v).raw = s.raw := rfl
@[simp] theorem State.writeCtrl_filt (s : State) (v : U32) : (s.writeCtrl v).filt = s.filt := rfl
@[simp] theorem State.writeCtrl_errCmd (s : State) (v : U32) : (s.writeCtrl v).errCmd = s.errCmd := rfl
@[simp] theorem State.writeCtrl_errHaz (s : State) (v : U32) : (s.writeCtrl v).errHaz = s.errHaz := rfl
@[simp] theorem State.writeCtrl_errNum (s : State) (v : U32) : (s.writeCtrl v).errNum = s.errNum := rfl
@[simp] theorem State.writeCtrl_nbsChg (s : State) (v : U32) : (s.writeCtrl v).nbsChg = s.nbsChg := rfl
@[simp] theorem State.writeCtrl_stallDone (s : State) (v : U32) : (s.writeCtrl v).stallDone = s.stallDone := rfl
@[simp] theorem State.writeCtrl_lastSpace (s : State) (v : U32) : (s.writeCtrl v).lastSpace = s.lastSpace := rfl
@[simp] theorem State.writeCtrl_loudSeen (s : State) (v : U32) : (s.writeCtrl v).loudSeen = s.loudSeen := rfl
@[simp] theorem State.writeCtrl_prevRaw (s : State) (v : U32) : (s.writeCtrl v).prevRaw = s.prevRaw := rfl
@[simp] theorem State.writeCtrl_prevFilt (s : State) (v : U32) : (s.writeCtrl v).prevFilt = s.prevFilt := rfl
@[simp] theorem State.writeCtrl_coeff (s : State) (v : U32) : (s.writeCtrl v).coeff = s.coeff := rfl
@[simp] theorem State.writeCtrl_tfloor (s : State) (v : U32) : (s.writeCtrl v).tfloor = s.tfloor := rfl
@[simp] theorem State.writeCtrl_react (s : State) (v : U32) : (s.writeCtrl v).react = s.react := rfl
@[simp] theorem State.writeCtrl_hold (s : State) (v : U32) : (s.writeCtrl v).hold = s.hold := rfl
@[simp] theorem State.writeCtrl_sf10 (s : State) (v : U32) : (s.writeCtrl v).sf10 = s.sf10 := rfl
@[simp] theorem State.writeCtrl_nbmin (s : State) (v : U32) : (s.writeCtrl v).nbmin = s.nbmin := rfl
@[simp] theorem State.writeCtrl_gain (s : State) (v : U32) : (s.writeCtrl v).gain = s.gain := rfl
@[simp] theorem State.writeCtrl_mag (s : State) (v : U32) : (s.writeCtrl v).mag = s.mag := rfl
@[simp] theorem State.writeCtrl_thr (s : State) (v : U32) : (s.writeCtrl v).thr = s.thr := rfl
@[simp] theorem State.writeCtrl_loud (s : State) (v : U32) : (s.writeCtrl v).loud = s.loud := rfl
@[simp] theorem State.writeCtrl_lcnt (s : State) (v : U32) : (s.writeCtrl v).lcnt = s.lcnt := rfl
@[simp] theorem State.writeCtrl_q1 (s : State) (v : U32) : (s.writeCtrl v).q1 = s.q1 := rfl
@[simp] theorem State.writeCtrl_q2 (s : State) (v : U32) : (s.writeCtrl v).q2 = s.q2 := rfl
@[simp] theorem State.writeCtrl_scnt (s : State) (v : U32) : (s.writeCtrl v).scnt = s.scnt := rfl
@[simp] theorem State.writeCtrl_unit (s : State) (v : U32) : (s.writeCtrl v).unit = s.unit := rfl
@[simp] theorem State.writeCtrl_wpm (s : State) (v : U32) : (s.writeCtrl v).wpm = s.wpm := rfl
@[simp] theorem State.writeCtrl_nbs (s : State) (v : U32) : (s.writeCtrl v).nbs = s.nbs := rfl
@[simp] theorem State.writeCtrl_highdur (s : State) (v : U32) : (s.writeCtrl v).highdur = s.highdur := rfl
@[simp] theorem State.writeCtrl_lowdur (s : State) (v : U32) : (s.writeCtrl v).lowdur = s.lowdur := rfl
@[simp] theorem State.writeCtrl_highstart (s : State) (v : U32) : (s.writeCtrl v).highstart = s.highstart := rfl
@[simp] theorem State.writeCtrl_lowstart (s : State) (v : U32) : (s.writeCtrl v).lowstart = s.lowstart := rfl
@[simp] theorem State.writeCtrl_lastrawt (s : State) (v : U32) : (s.writeCtrl v).lastrawt = s.lastrawt := rfl
@[simp] theorem State.writeCtrl_lastloudt (s : State) (v : U32) : (s.writeCtrl v).lastloudt = s.lastloudt := rfl
@[simp] theorem State.writeCtrl_code (s : State) (v : U32) : (s.writeCtrl v).code = s.code := rfl
@[simp] theorem State.writeCtrl_dur (s : State) (v : U32) : (s.writeCtrl v).dur = s.dur := rfl
@[simp] theorem State.writeCtrl_rst (s : State) (v : U32) : (s.writeCtrl v).rst = s.rst := rfl
@[simp] theorem State.writeCtrl_port (s : State) (v : U32) : (s.writeCtrl v).port = s.port := rfl
@[simp] theorem State.writeCtrl_faultMark (s : State) (v : U32) : (s.writeCtrl v).faultMark = s.faultMark := rfl
@[simp] theorem State.writeCtrl_events (s : State) (v : U32) : (s.writeCtrl v).events = s.events := rfl
@[simp] theorem State.writeCtrl_setGains (s : State) (v : U32) : (s.writeCtrl v).setGains = s.setGains := rfl
@[simp] theorem State.writeCtrl_responses (s : State) (v : U32) : (s.writeCtrl v).responses = s.responses := rfl
@[simp] theorem State.writeCtrl_cfg (s : State) (v : U32) : (s.writeCtrl v).cfg = s.cfg := rfl
@[simp] theorem State.writeCtrl_scan (s : State) (v : U32) : (s.writeCtrl v).scan = v.getLsbD 0 := rfl
@[simp] theorem State.writeCtrl_autotune (s : State) (v : U32) : (s.writeCtrl v).autotune = v.getLsbD 1 := rfl
@[simp] theorem State.writeCtrl_diag (s : State) (v : U32) : (s.writeCtrl v).diag = v.getLsbD 2 := rfl

/-! ## emitChar (44_symbol_decoder.md R166) -/

@[simp] theorem State.emitChar_scan (s : State) (c : Byte) (t : U32) (d : List U32) : (s.emitChar c t d).scan = s.scan := rfl
@[simp] theorem State.emitChar_autotune (s : State) (c : Byte) (t : U32) (d : List U32) : (s.emitChar c t d).autotune = s.autotune := rfl
@[simp] theorem State.emitChar_diag (s : State) (c : Byte) (t : U32) (d : List U32) : (s.emitChar c t d).diag = s.diag := rfl
@[simp] theorem State.emitChar_raw (s : State) (c : Byte) (t : U32) (d : List U32) : (s.emitChar c t d).raw = s.raw := rfl
@[simp] theorem State.emitChar_filt (s : State) (c : Byte) (t : U32) (d : List U32) : (s.emitChar c t d).filt = s.filt := rfl
@[simp] theorem State.emitChar_errCmd (s : State) (c : Byte) (t : U32) (d : List U32) : (s.emitChar c t d).errCmd = s.errCmd := rfl
@[simp] theorem State.emitChar_errHaz (s : State) (c : Byte) (t : U32) (d : List U32) : (s.emitChar c t d).errHaz = s.errHaz := rfl
@[simp] theorem State.emitChar_errNum (s : State) (c : Byte) (t : U32) (d : List U32) : (s.emitChar c t d).errNum = s.errNum := rfl
@[simp] theorem State.emitChar_nbsChg (s : State) (c : Byte) (t : U32) (d : List U32) : (s.emitChar c t d).nbsChg = s.nbsChg := rfl
@[simp] theorem State.emitChar_stallDone (s : State) (c : Byte) (t : U32) (d : List U32) : (s.emitChar c t d).stallDone = s.stallDone := rfl
@[simp] theorem State.emitChar_lastSpace (s : State) (c : Byte) (t : U32) (d : List U32) : (s.emitChar c t d).lastSpace = s.lastSpace := rfl
@[simp] theorem State.emitChar_loudSeen (s : State) (c : Byte) (t : U32) (d : List U32) : (s.emitChar c t d).loudSeen = s.loudSeen := rfl
@[simp] theorem State.emitChar_prevRaw (s : State) (c : Byte) (t : U32) (d : List U32) : (s.emitChar c t d).prevRaw = s.prevRaw := rfl
@[simp] theorem State.emitChar_prevFilt (s : State) (c : Byte) (t : U32) (d : List U32) : (s.emitChar c t d).prevFilt = s.prevFilt := rfl
@[simp] theorem State.emitChar_coeff (s : State) (c : Byte) (t : U32) (d : List U32) : (s.emitChar c t d).coeff = s.coeff := rfl
@[simp] theorem State.emitChar_tfloor (s : State) (c : Byte) (t : U32) (d : List U32) : (s.emitChar c t d).tfloor = s.tfloor := rfl
@[simp] theorem State.emitChar_react (s : State) (c : Byte) (t : U32) (d : List U32) : (s.emitChar c t d).react = s.react := rfl
@[simp] theorem State.emitChar_hold (s : State) (c : Byte) (t : U32) (d : List U32) : (s.emitChar c t d).hold = s.hold := rfl
@[simp] theorem State.emitChar_sf10 (s : State) (c : Byte) (t : U32) (d : List U32) : (s.emitChar c t d).sf10 = s.sf10 := rfl
@[simp] theorem State.emitChar_nbmin (s : State) (c : Byte) (t : U32) (d : List U32) : (s.emitChar c t d).nbmin = s.nbmin := rfl
@[simp] theorem State.emitChar_gain (s : State) (c : Byte) (t : U32) (d : List U32) : (s.emitChar c t d).gain = s.gain := rfl
@[simp] theorem State.emitChar_mag (s : State) (c : Byte) (t : U32) (d : List U32) : (s.emitChar c t d).mag = s.mag := rfl
@[simp] theorem State.emitChar_thr (s : State) (c : Byte) (t : U32) (d : List U32) : (s.emitChar c t d).thr = s.thr := rfl
@[simp] theorem State.emitChar_loud (s : State) (c : Byte) (t : U32) (d : List U32) : (s.emitChar c t d).loud = s.loud := rfl
@[simp] theorem State.emitChar_lcnt (s : State) (c : Byte) (t : U32) (d : List U32) : (s.emitChar c t d).lcnt = s.lcnt := rfl
@[simp] theorem State.emitChar_q1 (s : State) (c : Byte) (t : U32) (d : List U32) : (s.emitChar c t d).q1 = s.q1 := rfl
@[simp] theorem State.emitChar_q2 (s : State) (c : Byte) (t : U32) (d : List U32) : (s.emitChar c t d).q2 = s.q2 := rfl
@[simp] theorem State.emitChar_scnt (s : State) (c : Byte) (t : U32) (d : List U32) : (s.emitChar c t d).scnt = s.scnt := rfl
@[simp] theorem State.emitChar_unit (s : State) (c : Byte) (t : U32) (d : List U32) : (s.emitChar c t d).unit = s.unit := rfl
@[simp] theorem State.emitChar_wpm (s : State) (c : Byte) (t : U32) (d : List U32) : (s.emitChar c t d).wpm = s.wpm := rfl
@[simp] theorem State.emitChar_nbs (s : State) (c : Byte) (t : U32) (d : List U32) : (s.emitChar c t d).nbs = s.nbs := rfl
@[simp] theorem State.emitChar_highdur (s : State) (c : Byte) (t : U32) (d : List U32) : (s.emitChar c t d).highdur = s.highdur := rfl
@[simp] theorem State.emitChar_lowdur (s : State) (c : Byte) (t : U32) (d : List U32) : (s.emitChar c t d).lowdur = s.lowdur := rfl
@[simp] theorem State.emitChar_highstart (s : State) (c : Byte) (t : U32) (d : List U32) : (s.emitChar c t d).highstart = s.highstart := rfl
@[simp] theorem State.emitChar_lowstart (s : State) (c : Byte) (t : U32) (d : List U32) : (s.emitChar c t d).lowstart = s.lowstart := rfl
@[simp] theorem State.emitChar_lastrawt (s : State) (c : Byte) (t : U32) (d : List U32) : (s.emitChar c t d).lastrawt = s.lastrawt := rfl
@[simp] theorem State.emitChar_lastloudt (s : State) (c : Byte) (t : U32) (d : List U32) : (s.emitChar c t d).lastloudt = s.lastloudt := rfl
@[simp] theorem State.emitChar_code (s : State) (c : Byte) (t : U32) (d : List U32) : (s.emitChar c t d).code = s.code := rfl
@[simp] theorem State.emitChar_dur (s : State) (c : Byte) (t : U32) (d : List U32) : (s.emitChar c t d).dur = s.dur := rfl
@[simp] theorem State.emitChar_rst (s : State) (c : Byte) (t : U32) (d : List U32) : (s.emitChar c t d).rst = s.rst := rfl
@[simp] theorem State.emitChar_port (s : State) (c : Byte) (t : U32) (d : List U32) : (s.emitChar c t d).port = s.port := rfl
@[simp] theorem State.emitChar_faultMark (s : State) (c : Byte) (t : U32) (d : List U32) : (s.emitChar c t d).faultMark = s.faultMark := rfl
@[simp] theorem State.emitChar_setGains (s : State) (c : Byte) (t : U32) (d : List U32) : (s.emitChar c t d).setGains = s.setGains := rfl
@[simp] theorem State.emitChar_responses (s : State) (c : Byte) (t : U32) (d : List U32) : (s.emitChar c t d).responses = s.responses := rfl
@[simp] theorem State.emitChar_cfg (s : State) (c : Byte) (t : U32) (d : List U32) : (s.emitChar c t d).cfg = s.cfg := rfl
@[simp] theorem State.emitChar_events (s : State) (c : Byte) (t : U32) (d : List U32) : (s.emitChar c t d).events = s.events ++ [⟨c, t, d⟩] := rfl

/-! ## emitSetGain (45_gain_controller.md R185) -/

@[simp] theorem State.emitSetGain_scan (s : State) (g : U32) : (s.emitSetGain g).scan = s.scan := rfl
@[simp] theorem State.emitSetGain_autotune (s : State) (g : U32) : (s.emitSetGain g).autotune = s.autotune := rfl
@[simp] theorem State.emitSetGain_diag (s : State) (g : U32) : (s.emitSetGain g).diag = s.diag := rfl
@[simp] theorem State.emitSetGain_raw (s : State) (g : U32) : (s.emitSetGain g).raw = s.raw := rfl
@[simp] theorem State.emitSetGain_filt (s : State) (g : U32) : (s.emitSetGain g).filt = s.filt := rfl
@[simp] theorem State.emitSetGain_errCmd (s : State) (g : U32) : (s.emitSetGain g).errCmd = s.errCmd := rfl
@[simp] theorem State.emitSetGain_errHaz (s : State) (g : U32) : (s.emitSetGain g).errHaz = s.errHaz := rfl
@[simp] theorem State.emitSetGain_errNum (s : State) (g : U32) : (s.emitSetGain g).errNum = s.errNum := rfl
@[simp] theorem State.emitSetGain_nbsChg (s : State) (g : U32) : (s.emitSetGain g).nbsChg = s.nbsChg := rfl
@[simp] theorem State.emitSetGain_stallDone (s : State) (g : U32) : (s.emitSetGain g).stallDone = s.stallDone := rfl
@[simp] theorem State.emitSetGain_lastSpace (s : State) (g : U32) : (s.emitSetGain g).lastSpace = s.lastSpace := rfl
@[simp] theorem State.emitSetGain_loudSeen (s : State) (g : U32) : (s.emitSetGain g).loudSeen = s.loudSeen := rfl
@[simp] theorem State.emitSetGain_prevRaw (s : State) (g : U32) : (s.emitSetGain g).prevRaw = s.prevRaw := rfl
@[simp] theorem State.emitSetGain_prevFilt (s : State) (g : U32) : (s.emitSetGain g).prevFilt = s.prevFilt := rfl
@[simp] theorem State.emitSetGain_coeff (s : State) (g : U32) : (s.emitSetGain g).coeff = s.coeff := rfl
@[simp] theorem State.emitSetGain_tfloor (s : State) (g : U32) : (s.emitSetGain g).tfloor = s.tfloor := rfl
@[simp] theorem State.emitSetGain_react (s : State) (g : U32) : (s.emitSetGain g).react = s.react := rfl
@[simp] theorem State.emitSetGain_hold (s : State) (g : U32) : (s.emitSetGain g).hold = s.hold := rfl
@[simp] theorem State.emitSetGain_sf10 (s : State) (g : U32) : (s.emitSetGain g).sf10 = s.sf10 := rfl
@[simp] theorem State.emitSetGain_nbmin (s : State) (g : U32) : (s.emitSetGain g).nbmin = s.nbmin := rfl
@[simp] theorem State.emitSetGain_gain (s : State) (g : U32) : (s.emitSetGain g).gain = s.gain := rfl
@[simp] theorem State.emitSetGain_mag (s : State) (g : U32) : (s.emitSetGain g).mag = s.mag := rfl
@[simp] theorem State.emitSetGain_thr (s : State) (g : U32) : (s.emitSetGain g).thr = s.thr := rfl
@[simp] theorem State.emitSetGain_loud (s : State) (g : U32) : (s.emitSetGain g).loud = s.loud := rfl
@[simp] theorem State.emitSetGain_lcnt (s : State) (g : U32) : (s.emitSetGain g).lcnt = s.lcnt := rfl
@[simp] theorem State.emitSetGain_q1 (s : State) (g : U32) : (s.emitSetGain g).q1 = s.q1 := rfl
@[simp] theorem State.emitSetGain_q2 (s : State) (g : U32) : (s.emitSetGain g).q2 = s.q2 := rfl
@[simp] theorem State.emitSetGain_scnt (s : State) (g : U32) : (s.emitSetGain g).scnt = s.scnt := rfl
@[simp] theorem State.emitSetGain_unit (s : State) (g : U32) : (s.emitSetGain g).unit = s.unit := rfl
@[simp] theorem State.emitSetGain_wpm (s : State) (g : U32) : (s.emitSetGain g).wpm = s.wpm := rfl
@[simp] theorem State.emitSetGain_nbs (s : State) (g : U32) : (s.emitSetGain g).nbs = s.nbs := rfl
@[simp] theorem State.emitSetGain_highdur (s : State) (g : U32) : (s.emitSetGain g).highdur = s.highdur := rfl
@[simp] theorem State.emitSetGain_lowdur (s : State) (g : U32) : (s.emitSetGain g).lowdur = s.lowdur := rfl
@[simp] theorem State.emitSetGain_highstart (s : State) (g : U32) : (s.emitSetGain g).highstart = s.highstart := rfl
@[simp] theorem State.emitSetGain_lowstart (s : State) (g : U32) : (s.emitSetGain g).lowstart = s.lowstart := rfl
@[simp] theorem State.emitSetGain_lastrawt (s : State) (g : U32) : (s.emitSetGain g).lastrawt = s.lastrawt := rfl
@[simp] theorem State.emitSetGain_lastloudt (s : State) (g : U32) : (s.emitSetGain g).lastloudt = s.lastloudt := rfl
@[simp] theorem State.emitSetGain_code (s : State) (g : U32) : (s.emitSetGain g).code = s.code := rfl
@[simp] theorem State.emitSetGain_dur (s : State) (g : U32) : (s.emitSetGain g).dur = s.dur := rfl
@[simp] theorem State.emitSetGain_rst (s : State) (g : U32) : (s.emitSetGain g).rst = s.rst := rfl
@[simp] theorem State.emitSetGain_port (s : State) (g : U32) : (s.emitSetGain g).port = s.port := rfl
@[simp] theorem State.emitSetGain_faultMark (s : State) (g : U32) : (s.emitSetGain g).faultMark = s.faultMark := rfl
@[simp] theorem State.emitSetGain_events (s : State) (g : U32) : (s.emitSetGain g).events = s.events := rfl
@[simp] theorem State.emitSetGain_responses (s : State) (g : U32) : (s.emitSetGain g).responses = s.responses := rfl
@[simp] theorem State.emitSetGain_cfg (s : State) (g : U32) : (s.emitSetGain g).cfg = s.cfg := rfl
@[simp] theorem State.emitSetGain_setGains (s : State) (g : U32) : (s.emitSetGain g).setGains = s.setGains ++ [g] := rfl

/-! ## respond (40_commands.md R95) -/

@[simp] theorem State.respond_scan (s : State) (v : U32) : (s.respond v).scan = s.scan := rfl
@[simp] theorem State.respond_autotune (s : State) (v : U32) : (s.respond v).autotune = s.autotune := rfl
@[simp] theorem State.respond_diag (s : State) (v : U32) : (s.respond v).diag = s.diag := rfl
@[simp] theorem State.respond_raw (s : State) (v : U32) : (s.respond v).raw = s.raw := rfl
@[simp] theorem State.respond_filt (s : State) (v : U32) : (s.respond v).filt = s.filt := rfl
@[simp] theorem State.respond_errCmd (s : State) (v : U32) : (s.respond v).errCmd = s.errCmd := rfl
@[simp] theorem State.respond_errHaz (s : State) (v : U32) : (s.respond v).errHaz = s.errHaz := rfl
@[simp] theorem State.respond_errNum (s : State) (v : U32) : (s.respond v).errNum = s.errNum := rfl
@[simp] theorem State.respond_nbsChg (s : State) (v : U32) : (s.respond v).nbsChg = s.nbsChg := rfl
@[simp] theorem State.respond_stallDone (s : State) (v : U32) : (s.respond v).stallDone = s.stallDone := rfl
@[simp] theorem State.respond_lastSpace (s : State) (v : U32) : (s.respond v).lastSpace = s.lastSpace := rfl
@[simp] theorem State.respond_loudSeen (s : State) (v : U32) : (s.respond v).loudSeen = s.loudSeen := rfl
@[simp] theorem State.respond_prevRaw (s : State) (v : U32) : (s.respond v).prevRaw = s.prevRaw := rfl
@[simp] theorem State.respond_prevFilt (s : State) (v : U32) : (s.respond v).prevFilt = s.prevFilt := rfl
@[simp] theorem State.respond_coeff (s : State) (v : U32) : (s.respond v).coeff = s.coeff := rfl
@[simp] theorem State.respond_tfloor (s : State) (v : U32) : (s.respond v).tfloor = s.tfloor := rfl
@[simp] theorem State.respond_react (s : State) (v : U32) : (s.respond v).react = s.react := rfl
@[simp] theorem State.respond_hold (s : State) (v : U32) : (s.respond v).hold = s.hold := rfl
@[simp] theorem State.respond_sf10 (s : State) (v : U32) : (s.respond v).sf10 = s.sf10 := rfl
@[simp] theorem State.respond_nbmin (s : State) (v : U32) : (s.respond v).nbmin = s.nbmin := rfl
@[simp] theorem State.respond_gain (s : State) (v : U32) : (s.respond v).gain = s.gain := rfl
@[simp] theorem State.respond_mag (s : State) (v : U32) : (s.respond v).mag = s.mag := rfl
@[simp] theorem State.respond_thr (s : State) (v : U32) : (s.respond v).thr = s.thr := rfl
@[simp] theorem State.respond_loud (s : State) (v : U32) : (s.respond v).loud = s.loud := rfl
@[simp] theorem State.respond_lcnt (s : State) (v : U32) : (s.respond v).lcnt = s.lcnt := rfl
@[simp] theorem State.respond_q1 (s : State) (v : U32) : (s.respond v).q1 = s.q1 := rfl
@[simp] theorem State.respond_q2 (s : State) (v : U32) : (s.respond v).q2 = s.q2 := rfl
@[simp] theorem State.respond_scnt (s : State) (v : U32) : (s.respond v).scnt = s.scnt := rfl
@[simp] theorem State.respond_unit (s : State) (v : U32) : (s.respond v).unit = s.unit := rfl
@[simp] theorem State.respond_wpm (s : State) (v : U32) : (s.respond v).wpm = s.wpm := rfl
@[simp] theorem State.respond_nbs (s : State) (v : U32) : (s.respond v).nbs = s.nbs := rfl
@[simp] theorem State.respond_highdur (s : State) (v : U32) : (s.respond v).highdur = s.highdur := rfl
@[simp] theorem State.respond_lowdur (s : State) (v : U32) : (s.respond v).lowdur = s.lowdur := rfl
@[simp] theorem State.respond_highstart (s : State) (v : U32) : (s.respond v).highstart = s.highstart := rfl
@[simp] theorem State.respond_lowstart (s : State) (v : U32) : (s.respond v).lowstart = s.lowstart := rfl
@[simp] theorem State.respond_lastrawt (s : State) (v : U32) : (s.respond v).lastrawt = s.lastrawt := rfl
@[simp] theorem State.respond_lastloudt (s : State) (v : U32) : (s.respond v).lastloudt = s.lastloudt := rfl
@[simp] theorem State.respond_code (s : State) (v : U32) : (s.respond v).code = s.code := rfl
@[simp] theorem State.respond_dur (s : State) (v : U32) : (s.respond v).dur = s.dur := rfl
@[simp] theorem State.respond_rst (s : State) (v : U32) : (s.respond v).rst = s.rst := rfl
@[simp] theorem State.respond_port (s : State) (v : U32) : (s.respond v).port = s.port := rfl
@[simp] theorem State.respond_faultMark (s : State) (v : U32) : (s.respond v).faultMark = s.faultMark := rfl
@[simp] theorem State.respond_events (s : State) (v : U32) : (s.respond v).events = s.events := rfl
@[simp] theorem State.respond_setGains (s : State) (v : U32) : (s.respond v).setGains = s.setGains := rfl
@[simp] theorem State.respond_cfg (s : State) (v : U32) : (s.respond v).cfg = s.cfg := rfl
@[simp] theorem State.respond_responses (s : State) (v : U32) : (s.respond v).responses = s.responses ++ [v] := rfl

/-! ## withFetchWord -/

@[simp] theorem State.withFetchWord_scan (s : State) (nbits w : Nat) : (s.withFetchWord nbits w).scan = s.scan := rfl
@[simp] theorem State.withFetchWord_autotune (s : State) (nbits w : Nat) : (s.withFetchWord nbits w).autotune = s.autotune := rfl
@[simp] theorem State.withFetchWord_diag (s : State) (nbits w : Nat) : (s.withFetchWord nbits w).diag = s.diag := rfl
@[simp] theorem State.withFetchWord_raw (s : State) (nbits w : Nat) : (s.withFetchWord nbits w).raw = s.raw := rfl
@[simp] theorem State.withFetchWord_filt (s : State) (nbits w : Nat) : (s.withFetchWord nbits w).filt = s.filt := rfl
@[simp] theorem State.withFetchWord_errCmd (s : State) (nbits w : Nat) : (s.withFetchWord nbits w).errCmd = s.errCmd := rfl
@[simp] theorem State.withFetchWord_errHaz (s : State) (nbits w : Nat) : (s.withFetchWord nbits w).errHaz = s.errHaz := rfl
@[simp] theorem State.withFetchWord_errNum (s : State) (nbits w : Nat) : (s.withFetchWord nbits w).errNum = s.errNum := rfl
@[simp] theorem State.withFetchWord_nbsChg (s : State) (nbits w : Nat) : (s.withFetchWord nbits w).nbsChg = s.nbsChg := rfl
@[simp] theorem State.withFetchWord_stallDone (s : State) (nbits w : Nat) : (s.withFetchWord nbits w).stallDone = s.stallDone := rfl
@[simp] theorem State.withFetchWord_lastSpace (s : State) (nbits w : Nat) : (s.withFetchWord nbits w).lastSpace = s.lastSpace := rfl
@[simp] theorem State.withFetchWord_loudSeen (s : State) (nbits w : Nat) : (s.withFetchWord nbits w).loudSeen = s.loudSeen := rfl
@[simp] theorem State.withFetchWord_prevRaw (s : State) (nbits w : Nat) : (s.withFetchWord nbits w).prevRaw = s.prevRaw := rfl
@[simp] theorem State.withFetchWord_prevFilt (s : State) (nbits w : Nat) : (s.withFetchWord nbits w).prevFilt = s.prevFilt := rfl
@[simp] theorem State.withFetchWord_coeff (s : State) (nbits w : Nat) : (s.withFetchWord nbits w).coeff = s.coeff := rfl
@[simp] theorem State.withFetchWord_tfloor (s : State) (nbits w : Nat) : (s.withFetchWord nbits w).tfloor = s.tfloor := rfl
@[simp] theorem State.withFetchWord_react (s : State) (nbits w : Nat) : (s.withFetchWord nbits w).react = s.react := rfl
@[simp] theorem State.withFetchWord_hold (s : State) (nbits w : Nat) : (s.withFetchWord nbits w).hold = s.hold := rfl
@[simp] theorem State.withFetchWord_sf10 (s : State) (nbits w : Nat) : (s.withFetchWord nbits w).sf10 = s.sf10 := rfl
@[simp] theorem State.withFetchWord_nbmin (s : State) (nbits w : Nat) : (s.withFetchWord nbits w).nbmin = s.nbmin := rfl
@[simp] theorem State.withFetchWord_gain (s : State) (nbits w : Nat) : (s.withFetchWord nbits w).gain = s.gain := rfl
@[simp] theorem State.withFetchWord_mag (s : State) (nbits w : Nat) : (s.withFetchWord nbits w).mag = s.mag := rfl
@[simp] theorem State.withFetchWord_thr (s : State) (nbits w : Nat) : (s.withFetchWord nbits w).thr = s.thr := rfl
@[simp] theorem State.withFetchWord_loud (s : State) (nbits w : Nat) : (s.withFetchWord nbits w).loud = s.loud := rfl
@[simp] theorem State.withFetchWord_lcnt (s : State) (nbits w : Nat) : (s.withFetchWord nbits w).lcnt = s.lcnt := rfl
@[simp] theorem State.withFetchWord_q1 (s : State) (nbits w : Nat) : (s.withFetchWord nbits w).q1 = s.q1 := rfl
@[simp] theorem State.withFetchWord_q2 (s : State) (nbits w : Nat) : (s.withFetchWord nbits w).q2 = s.q2 := rfl
@[simp] theorem State.withFetchWord_scnt (s : State) (nbits w : Nat) : (s.withFetchWord nbits w).scnt = s.scnt := rfl
@[simp] theorem State.withFetchWord_unit (s : State) (nbits w : Nat) : (s.withFetchWord nbits w).unit = s.unit := rfl
@[simp] theorem State.withFetchWord_wpm (s : State) (nbits w : Nat) : (s.withFetchWord nbits w).wpm = s.wpm := rfl
@[simp] theorem State.withFetchWord_nbs (s : State) (nbits w : Nat) : (s.withFetchWord nbits w).nbs = s.nbs := rfl
@[simp] theorem State.withFetchWord_highdur (s : State) (nbits w : Nat) : (s.withFetchWord nbits w).highdur = s.highdur := rfl
@[simp] theorem State.withFetchWord_lowdur (s : State) (nbits w : Nat) : (s.withFetchWord nbits w).lowdur = s.lowdur := rfl
@[simp] theorem State.withFetchWord_highstart (s : State) (nbits w : Nat) : (s.withFetchWord nbits w).highstart = s.highstart := rfl
@[simp] theorem State.withFetchWord_lowstart (s : State) (nbits w : Nat) : (s.withFetchWord nbits w).lowstart = s.lowstart := rfl
@[simp] theorem State.withFetchWord_lastrawt (s : State) (nbits w : Nat) : (s.withFetchWord nbits w).lastrawt = s.lastrawt := rfl
@[simp] theorem State.withFetchWord_lastloudt (s : State) (nbits w : Nat) : (s.withFetchWord nbits w).lastloudt = s.lastloudt := rfl
@[simp] theorem State.withFetchWord_code (s : State) (nbits w : Nat) : (s.withFetchWord nbits w).code = s.code := rfl
@[simp] theorem State.withFetchWord_dur (s : State) (nbits w : Nat) : (s.withFetchWord nbits w).dur = s.dur := rfl
@[simp] theorem State.withFetchWord_faultMark (s : State) (nbits w : Nat) : (s.withFetchWord nbits w).faultMark = s.faultMark := rfl
@[simp] theorem State.withFetchWord_events (s : State) (nbits w : Nat) : (s.withFetchWord nbits w).events = s.events := rfl
@[simp] theorem State.withFetchWord_setGains (s : State) (nbits w : Nat) : (s.withFetchWord nbits w).setGains = s.setGains := rfl
@[simp] theorem State.withFetchWord_responses (s : State) (nbits w : Nat) : (s.withFetchWord nbits w).responses = s.responses := rfl
@[simp] theorem State.withFetchWord_cfg (s : State) (nbits w : Nat) : (s.withFetchWord nbits w).cfg = s.cfg := rfl
@[simp] theorem State.withFetchWord_rst (s : State) (nbits w : Nat) : (s.withFetchWord nbits w).rst = false := rfl
@[simp] theorem State.withFetchWord_port (s : State) (nbits w : Nat) : (s.withFetchWord nbits w).port = .command (BitVec.ofNat 48 (w % 2 ^ nbits)) :: s.port := rfl

end Sys2Proof.Machine
end

