-- ==== Sys2Proof/Laws/Stages.lean ====
section
/-! SUPPORT. For each shared operation and each stage of the pass, once, everything it can write: the state after it is the
state before it with the named fields changed and no other. Later proofs cite these instead of unfolding the stages. -/
namespace Sys2Proof.Machine

/-! ## Data path before the classifier -/

theorem goertzelFinish_frame (s : State) : ∃ e f, goertzelFinish s =
    { s with mag := magOf (magSquared s.q1 s.q2 s.coeff), q1 := posZero, q2 := posZero, scnt := 0,
             errNum := e, faultMark := f } := by
  unfold goertzelFinish
  by_cases h : isFinite (magSquared s.q1 s.q2 s.coeff) = true
  · exact ⟨s.errNum, s.faultMark, by simp [h]⟩
  · exact ⟨true, true, by simp [h, State.flag]⟩

theorem rawTransition_frame (now : U32) (s : State) : ∃ l, rawTransition now s =
    { s with lastrawt := l, prevRaw := s.raw } := by
  unfold rawTransition
  by_cases h : s.raw = s.prevRaw
  · exact ⟨s.lastrawt, by rw [if_neg (by simp [h])]; cases s; simp_all⟩
  · exact ⟨now, by rw [if_pos h]⟩

theorem commitFilter_frame (now : U32) (s : State) : ∃ f, commitFilter now s = { s with filt := f } := by
  unfold commitFilter
  split
  · exact ⟨_, rfl⟩
  · exact ⟨s.filt, rfl⟩

theorem debounce_frame (now : U32) (s : State) : ∃ l f, debounce now s =
    { s with lastrawt := l, prevRaw := s.raw, filt := f } := by
  obtain ⟨l, hl⟩ := rawTransition_frame now s
  obtain ⟨f, hf⟩ := commitFilter_frame now (rawTransition now s)
  exact ⟨l, f, by rw [debounce, hf, hl]⟩

theorem frontEnd_frame (now : U32) (s : State) : ∃ e m t r l f, frontEnd now s =
    { s with mag := magOf (magSquared s.q1 s.q2 s.coeff), q1 := posZero, q2 := posZero, scnt := 0, errNum := e,
             faultMark := m, thr := t, raw := r, lastrawt := l, prevRaw := r, filt := f } := by
  obtain ⟨e, m, h1⟩ := goertzelFinish_frame s
  obtain ⟨l, f, h2⟩ := debounce_frame now (compareThreshold (thresholdUpdate (goertzelFinish s)))
  exact ⟨e, m, _, _, l, f, by rw [frontEnd, h2, h1]; rfl⟩

/-! ## Symbol decoder -/

theorem appendSymbol_frame (sym : Symbol) (h : U32) (s : State) :
    (s.code.length = codeCap ∧ appendSymbol sym h s = { s with code := [], dur := [] }) ∨
    (s.code.length ≠ codeCap ∧ appendSymbol sym h s = { s with code := s.code ++ [sym], dur := s.dur ++ [h] }) := by
  unfold appendSymbol
  by_cases hl : s.code.length = codeCap
  · exact .inl ⟨hl, by simp [hl]⟩
  · exact .inr ⟨hl, by simp [hl]⟩

/-- A flush: the buffer is cleared; a mapped one emits its character and clears LAST_SPACE. -/
theorem flush_cases (now : U32) (s : State) :
    (decodeBuffer s = none ∧ flush now s = { s with code := [], dur := [] }) ∨
    (∃ c, decodeBuffer s = some c ∧ flush now s =
      { s with code := [], dur := [], lastSpace := false,
               events := s.events ++ [⟨c, now, if s.diag then s.dur else []⟩] }) := by
  unfold flush
  cases hc : decodeBuffer s with
  | none => exact .inl ⟨rfl, rfl⟩
  | some c => exact .inr ⟨c, rfl, rfl⟩

theorem space_cases (now : U32) (s : State) :
    (s.lastSpace = true ∧ space now s = s) ∨
    (s.lastSpace = false ∧ space now s = { s with lastSpace := true, events := s.events ++ [⟨0x20, now, []⟩] }) := by
  unfold space
  cases hl : s.lastSpace with
  | true => exact .inl ⟨rfl, by simp⟩
  | false => exact .inr ⟨rfl, by simp [State.emitChar]⟩

theorem flush_frame (now : U32) (s : State) : ∃ l ev, flush now s =
    { s with code := [], dur := [], lastSpace := l, events := ev } := by
  rcases flush_cases now s with ⟨-, h⟩ | ⟨c, -, h⟩
  · exact ⟨s.lastSpace, s.events, h⟩
  · exact ⟨_, _, h⟩

theorem wordBoundary_frame (now : U32) (s : State) : ∃ ev, wordBoundary now s =
    { s with code := [], dur := [], lastSpace := true, events := ev } := by
  obtain ⟨l, ev, hf⟩ := flush_frame now s
  unfold wordBoundary
  rw [hf]
  rcases space_cases now { s with code := [], dur := [], lastSpace := l, events := ev } with ⟨hl, h⟩ | ⟨hl, h⟩
  · rw [h]; simp only at hl; subst hl; exact ⟨_, rfl⟩
  · rw [h]; exact ⟨_, rfl⟩

/-! ## Classifier -/

theorem nbsUpdate_frame (s : State) : ∃ n c, nbsUpdate s = { s with nbs := n, nbsChg := c } := by
  unfold nbsUpdate
  by_cases h : nbHyst < (((candidateSize s.nbmin s.cfg.nbMax s.wpm).toNat : Int) - (s.nbs.toNat : Int)).natAbs
  · exact ⟨candidateSize s.nbmin s.cfg.nbMax s.wpm, true, by simp [h]⟩
  · exact ⟨s.nbs, s.nbsChg, by simp [h]⟩

theorem speedUpdate_frame (sym : Symbol) (h : U32) (s : State) : ∃ w n c, speedUpdate sym h s =
    { s with wpm := w, nbs := n, nbsChg := c } := by
  unfold speedUpdate
  by_cases hu : 1 ≤ unitMillis sym h
  · obtain ⟨n, c, hn⟩ := nbsUpdate_frame { s with wpm := BitVec.ofNat 32 (wpmAfter s.wpm.toNat (unitMillis sym h)) }
    exact ⟨_, n, c, by simp only [hu, if_true]; rw [hn]⟩
  · exact ⟨s.wpm, s.nbs, s.nbsChg, by simp [hu]⟩

theorem classifyMark_frame (h : U32) (s : State) : ∃ w n c co d, classifyMark h s =
    { s with wpm := w, nbs := n, nbsChg := c, code := co, dur := d } := by
  unfold classifyMark
  split
  · rename_i sym _
    obtain ⟨w, n, c, hs⟩ := speedUpdate_frame sym h (appendSymbol sym h s)
    rw [hs]
    rcases appendSymbol_frame sym h s with ⟨-, ha⟩ | ⟨-, ha⟩
    · rw [ha]; exact ⟨w, n, c, _, _, rfl⟩
    · rw [ha]; exact ⟨w, n, c, _, _, rfl⟩
  · exact ⟨s.wpm, s.nbs, s.nbsChg, s.code, s.dur, rfl⟩

theorem classifyGap_frame (now l : U32) (s : State) : ∃ co d ls ev, classifyGap now l s =
    { s with code := co, dur := d, lastSpace := ls, events := ev } := by
  unfold classifyGap
  simp only
  split
  · obtain ⟨ev, h⟩ := wordBoundary_frame now s
    exact ⟨_, _, _, ev, h⟩
  · split
    · obtain ⟨ls, ev, h⟩ := flush_frame now s
      exact ⟨_, _, ls, ev, h⟩
    · exact ⟨s.code, s.dur, s.lastSpace, s.events, rfl⟩

theorem stallGuard_frame (now : U32) (s : State) : ∃ sd co d ls ev, stallGuard now s =
    { s with stallDone := sd, code := co, dur := d, lastSpace := ls, events := ev } := by
  unfold stallGuard
  split
  · obtain ⟨ls, ev, h⟩ := flush_frame now s
    exact ⟨true, [], [], ls, ev, by rw [h]⟩
  · exact ⟨s.stallDone, s.code, s.dur, s.lastSpace, s.events, rfl⟩

/-- What a rising edge writes beside the gap's outcome. -/
theorem risingEdge_frame (now : U32) (s : State) : ∃ co d ls ev, risingEdge now s =
    { s with stallDone := false, lowdur := now - s.lowstart, highstart := now, code := co, dur := d,
             lastSpace := ls, events := ev } := by
  obtain ⟨co, d, ls, ev, h⟩ := classifyGap_frame now (now - s.lowstart)
    { s with stallDone := false, lowdur := now - s.lowstart, highstart := now }
  exact ⟨co, d, ls, ev, by rw [risingEdge, h]⟩

/-- What a falling edge writes beside the mark's outcome. -/
theorem fallingEdge_frame (now : U32) (s : State) : ∃ w n c co d, fallingEdge now s =
    { s with stallDone := false, highdur := now - s.highstart, lowstart := now,
             unit := sat32 (unitAfter s.unit.toNat (now - s.highstart).toNat),
             wpm := w, nbs := n, nbsChg := c, code := co, dur := d } := by
  obtain ⟨w, n, c, co, d, h⟩ := classifyMark_frame (now - s.highstart)
    (updateUnit (now - s.highstart) { s with stallDone := false, highdur := now - s.highstart, lowstart := now })
  exact ⟨w, n, c, co, d, by rw [fallingEdge, h]; rfl⟩

theorem processEdge_frame (now : U32) (s : State) : ∃ sd ld hs hd lst u w n c co d ls ev, processEdge now s =
    { s with prevFilt := s.filt, stallDone := sd, lowdur := ld, highstart := hs, highdur := hd, lowstart := lst,
             unit := u, wpm := w, nbs := n, nbsChg := c, code := co, dur := d, lastSpace := ls, events := ev } := by
  unfold processEdge
  simp only
  split
  · exact ⟨s.stallDone, s.lowdur, s.highstart, s.highdur, s.lowstart, s.unit, s.wpm, s.nbs, s.nbsChg, s.code, s.dur,
      s.lastSpace, s.events, rfl⟩
  · split
    · obtain ⟨co, d, ls, ev, h⟩ := risingEdge_frame now { s with prevFilt := s.filt }
      exact ⟨_, _, _, s.highdur, s.lowstart, s.unit, s.wpm, s.nbs, s.nbsChg, co, d, ls, ev, by rw [h]⟩
    · obtain ⟨w, n, c, co, d, h⟩ := fallingEdge_frame now { s with prevFilt := s.filt }
      exact ⟨_, s.lowdur, s.highstart, _, _, _, w, n, c, co, d, s.lastSpace, s.events, by rw [h]⟩

/-- The classifier writes the timing record, the speed estimate, the symbol decoder and the event port, nothing else. -/
theorem classify_frame (now : U32) (s : State) : ∃ sd ld hs hd lst u w n c co d ls ev, classify now s =
    { s with prevFilt := s.filt, stallDone := sd, lowdur := ld, highstart := hs, highdur := hd, lowstart := lst,
             unit := u, wpm := w, nbs := n, nbsChg := c, code := co, dur := d, lastSpace := ls, events := ev } := by
  obtain ⟨sd, ld, hs, hd, lst, u, w, n, c, co, d, ls, ev, h⟩ := processEdge_frame now s
  obtain ⟨sd', co', d', ls', ev', h'⟩ := stallGuard_frame now (processEdge now s)
  exact ⟨sd', ld, hs, hd, lst, u, w, n, c, co', d', ls', ev', by rw [classify, h', h]⟩

theorem classifyUnlessScanning_frame (now : U32) (s : State) :
    ∃ sd ld hs hd lst u w n c co d ls ev, classifyUnlessScanning now s =
    { s with prevFilt := s.filt, stallDone := sd, lowdur := ld, highstart := hs, highdur := hd, lowstart := lst,
             unit := u, wpm := w, nbs := n, nbsChg := c, code := co, dur := d, lastSpace := ls, events := ev } := by
  unfold classifyUnlessScanning
  split
  · exact ⟨s.stallDone, s.lowdur, s.highstart, s.highdur, s.lowstart, s.unit, s.wpm, s.nbs, s.nbsChg, s.code, s.dur,
      s.lastSpace, s.events, rfl⟩
  · exact classify_frame now s

/-! ## Gain loop -/

theorem markLoud_frame (now : U32) (s : State) : ∃ l b, markLoud now s = { s with lastloudt := l, loudSeen := b } := by
  unfold markLoud
  split
  · exact ⟨_, _, rfl⟩
  · exact ⟨s.lastloudt, s.loudSeen, rfl⟩

/-- A band correction: either no SetGain and the gain kept, or one SetGain with the new gain and LCNT cleared. -/
theorem bandCorrection_cases (now : U32) (s : State) :
    (∃ l b, bandCorrection now s = { s with lastloudt := l, loudSeen := b }) ∨
    (∃ l b g, g ≠ s.gain ∧ g = clampInt s.cfg.gainMin s.cfg.gainMax (bandTarget now s) ∧ bandCorrection now s =
      { s with lastloudt := l, loudSeen := b, gain := g, lcnt := 0, setGains := s.setGains ++ [g] }) := by
  unfold bandCorrection
  obtain ⟨l, b, hm⟩ := markLoud_frame now s
  by_cases hs : settled s = true
  · simp only [hs, if_true, hm]
    by_cases hg : clampInt s.cfg.gainMin s.cfg.gainMax (bandTarget now s) = s.gain
    · exact .inl ⟨l, b, by simp [hg]⟩
    · exact .inr ⟨l, b, _, hg, rfl, by simp [hg, State.emitSetGain]⟩
  · exact .inl ⟨s.lastloudt, s.loudSeen, by simp [hs]⟩

theorem gainLoop_frame (now : U32) (s : State) : ∃ lc lo l b g sg, gainLoop now s =
    { s with lcnt := lc, loud := lo, lastloudt := l, loudSeen := b, gain := g, setGains := sg } := by
  unfold gainLoop
  rcases bandCorrection_cases now (loudnessAverage s) with ⟨l, b, h⟩ | ⟨l, b, g, -, -, h⟩
  · exact ⟨_, _, l, b, s.gain, s.setGains, by rw [h]; rfl⟩
  · exact ⟨_, _, l, b, g, _, by rw [h]; rfl⟩

/-! ## The whole pass -/

/-- The frame of BLKEND: CTRL, ERR_CMD, ERR_HAZ, the tunables, the parameters, the inputs and the responses stay. -/
theorem pipelinePass_frame (now : U32) (s : State) :
    ∃ mg th e m r l f sd ld hs hd lst u w n c co d ls ev lc lo ll b g sg, pipelinePass now s =
    { s with mag := mg, thr := th, q1 := posZero, q2 := posZero, scnt := 0, errNum := e, faultMark := m, raw := r,
             lastrawt := l, prevRaw := r, filt := f, prevFilt := f, stallDone := sd, lowdur := ld, highstart := hs,
             highdur := hd, lowstart := lst, unit := u, wpm := w, nbs := n, nbsChg := c, code := co, dur := d,
             lastSpace := ls, events := ev, lcnt := lc, loud := lo, lastloudt := ll, loudSeen := b, gain := g,
             setGains := sg } := by
  obtain ⟨e, m, t, r, l, f, h1⟩ := frontEnd_frame now s
  obtain ⟨sd, ld, hs, hd, lst, u, w, n, c, co, d, ls, ev, h2⟩ := classifyUnlessScanning_frame now (frontEnd now s)
  obtain ⟨lc, lo, ll, b, g, sg, h3⟩ := gainLoop_frame now (classifyUnlessScanning now (frontEnd now s))
  exact ⟨_, t, e, m, r, l, f, sd, ld, hs, hd, lst, u, w, n, c, co, d, ls, ev, lc, lo, ll, b, g, sg,
    by rw [pipelinePass, h3, h2, h1]⟩

/-! ## NBS_CHG is sticky in a pass -/

theorem nbsUpdate_keeps_nbsChg {s : State} (h : s.nbsChg = true) : (nbsUpdate s).nbsChg = true := by
  unfold nbsUpdate
  simp only
  split
  · rfl
  · exact h

theorem classifyMark_keeps_nbsChg {s : State} (d : U32) (h : s.nbsChg = true) : (classifyMark d s).nbsChg = true := by
  unfold classifyMark
  split
  · rename_i sym _
    have ha : (appendSymbol sym d s).nbsChg = true := by
      rcases appendSymbol_frame sym d s with ⟨-, e⟩ | ⟨-, e⟩ <;> rw [e] <;> exact h
    unfold speedUpdate
    simp only
    split
    · exact nbsUpdate_keeps_nbsChg ha
    · exact ha
  · exact h

theorem processEdge_keeps_nbsChg {s : State} (now : U32) (h : s.nbsChg = true) : (processEdge now s).nbsChg = true := by
  unfold processEdge
  simp only
  split
  · exact h
  · split
    · obtain ⟨co, d, ls, ev, e⟩ := risingEdge_frame now { s with prevFilt := s.filt }
      rw [e]; exact h
    · exact classifyMark_keeps_nbsChg _ h

theorem stallGuard_keeps_nbsChg {s : State} (now : U32) (h : s.nbsChg = true) : (stallGuard now s).nbsChg = true := by
  obtain ⟨_, _, _, _, _, e⟩ := stallGuard_frame now s
  rw [e]; exact h

theorem classifyUnlessScanning_keeps_nbsChg {s : State} (now : U32) (h : s.nbsChg = true) :
    (classifyUnlessScanning now s).nbsChg = true := by
  unfold classifyUnlessScanning
  split
  · exact h
  · exact stallGuard_keeps_nbsChg now (processEdge_keeps_nbsChg now h)

theorem frontEnd_nbsChg (now : U32) (s : State) : (frontEnd now s).nbsChg = s.nbsChg := by
  obtain ⟨_, _, _, _, _, _, e⟩ := frontEnd_frame now s
  rw [e]

theorem gainLoop_nbsChg (now : U32) (s : State) : (gainLoop now s).nbsChg = s.nbsChg := by
  obtain ⟨_, _, _, _, _, _, e⟩ := gainLoop_frame now s
  rw [e]

/-- A BLKEND does not clear NBS_CHG. -/
theorem pipelinePass_keeps_nbsChg {s : State} (now : U32) (h : s.nbsChg = true) : (pipelinePass now s).nbsChg = true := by
  rw [pipelinePass, gainLoop_nbsChg]
  exact classifyUnlessScanning_keeps_nbsChg now ((frontEnd_nbsChg now s).trans h)

/-! ## Register writes -/

/-- The frame of WR: the datapath, the timing record, the symbol decoder, the inputs and the other outputs stay. -/
theorem regWrite_frame (a : Byte) (v : U32) (s : State) :
    ∃ sc au di ec eh en nc co tf th re ho sf nm nb g lc sg m, regWrite a v s =
    { s with scan := sc, autotune := au, diag := di, errCmd := ec, errHaz := eh, errNum := en, nbsChg := nc,
             coeff := co, tfloor := tf, thr := th, react := re, hold := ho, sf10 := sf, nbmin := nm, nbs := nb,
             gain := g, lcnt := lc, setGains := sg, faultMark := m } := by
  have same : ∀ t : State, t = s → ∃ sc au di ec eh en nc co tf th re ho sf nm nb g lc sg m, t =
      { s with scan := sc, autotune := au, diag := di, errCmd := ec, errHaz := eh, errNum := en, nbsChg := nc,
               coeff := co, tfloor := tf, thr := th, react := re, hold := ho, sf10 := sf, nbmin := nm, nbs := nb,
               gain := g, lcnt := lc, setGains := sg, faultMark := m } := by
    rintro t rfl
    exact ⟨_, _, _, _, _, _, _, _, _, _, _, _, _, _, _, _, _, _, _, rfl⟩
  unfold regWrite
  cases regOfIndex a with
  | none => exact ⟨_, _, _, _, _, _, _, _, _, _, _, _, _, _, _, _, _, _, _, rfl⟩
  | some r =>
    cases r with
    | ctrl => exact ⟨_, _, _, _, _, _, _, _, _, _, _, _, _, _, _, _, _, _, _, rfl⟩
    | status => exact ⟨_, _, _, _, _, _, _, _, _, _, _, _, _, _, _, _, _, _, _, rfl⟩
    | coeff =>
      simp only [writeReg, writeCoeff]
      split
      · exact ⟨_, _, _, _, _, _, _, _, _, _, _, _, _, _, _, _, _, _, _, rfl⟩
      · split
        · exact ⟨_, _, _, _, _, _, _, _, _, _, _, _, _, _, _, _, _, _, _, rfl⟩
        · exact ⟨_, _, _, _, _, _, _, _, _, _, _, _, _, _, _, _, _, _, _, rfl⟩
    | tfloor =>
      simp only [writeReg, writeTfloor]
      split
      · exact ⟨_, _, _, _, _, _, _, _, _, _, _, _, _, _, _, _, _, _, _, rfl⟩
      · exact ⟨_, _, _, _, _, _, _, _, _, _, _, _, _, _, _, _, _, _, _, rfl⟩
    | react => exact ⟨_, _, _, _, _, _, _, _, _, _, _, _, _, _, _, _, _, _, _, rfl⟩
    | hold => exact ⟨_, _, _, _, _, _, _, _, _, _, _, _, _, _, _, _, _, _, _, rfl⟩
    | sf10 => exact ⟨_, _, _, _, _, _, _, _, _, _, _, _, _, _, _, _, _, _, _, rfl⟩
    | nbmin =>
      simp only [writeReg, writeNbmin]
      split
      · exact ⟨_, _, _, _, _, _, _, _, _, _, _, _, _, _, _, _, _, _, _, rfl⟩
      · exact ⟨_, _, _, _, _, _, _, _, _, _, _, _, _, _, _, _, _, _, _, rfl⟩
    | gain => exact ⟨_, _, _, _, _, _, _, _, _, _, _, _, _, _, _, _, _, _, _, rfl⟩
    | _ => exact same _ rfl

end Sys2Proof.Machine
end

