-- ==== Sys2Proof/Tests/Slice0.lean ====
section
/-! SUPPORT. The model's own tests. Expected values are those of spec/95_test_vectors.md (T- and P-numbers) or are written out
from the rule a comment names. `test_` theorems are checks of the model; `witness_` theorems show values that meet the
hypotheses of the obligation they name. -/
namespace Sys2Proof.Tests

open Sys2Proof.Machine Sys2Proof.Safety

-- One theorem after another: many at once take many threads, and each thread's stack counts as memory.
set_option Elab.async false

/-! ## Source-line checks: each one refuses an ill-formed line -/

theorem test_refuses_sample_above : (AsmLine.sample 32768).wellFormed = false := by decide
theorem test_refuses_sample_below : (AsmLine.sample (-32769)).wellFormed = false := by decide
theorem test_refuses_blkend : (AsmLine.blkend (2 ^ 32)).wellFormed = false := by decide
theorem test_refuses_wr_index : (AsmLine.wr (.raw 256) (.int 0)).wellFormed = false := by decide
theorem test_refuses_wr_value : (AsmLine.wr (.named .hold) (.int (2 ^ 32))).wellFormed = false := by decide
theorem test_refuses_rd : (AsmLine.rd (.raw 256)).wellFormed = false := by decide
theorem test_refuses_treset : (AsmLine.treset (2 ^ 32)).wellFormed = false := by decide
theorem test_refuses_block_time : (AsmLine.block (2 ^ 32) [0]).wellFormed = false := by decide
theorem test_refuses_block_empty : (AsmLine.block 0 []).wellFormed = false := by decide
theorem test_refuses_block_sample : (AsmLine.block 0 [1, 40000]).wellFormed = false := by decide
theorem test_refuses_tone_time : (AsmLine.tone (2 ^ 32) 0).wellFormed = false := by decide
theorem test_refuses_tone_sample : (AsmLine.tone 0 32768).wellFormed = false := by decide
theorem test_refuses_silent : (AsmLine.silent (2 ^ 32)).wellFormed = false := by decide
theorem test_refuses_clr : (AsmLine.clr (2 ^ 32)).wellFormed = false := by decide
theorem test_refuses_wrf : (AsmLine.wrf (.raw 256) (.decimal false 1 0)).wellFormed = false := by decide

theorem test_accepts_boundaries :
    (AsmLine.sample 32767).wellFormed = true ∧ (AsmLine.sample (-32768)).wellFormed = true ∧
    (AsmLine.wr (.raw 255) (.int (2 ^ 32 - 1))).wellFormed = true ∧
    (AsmLine.block (2 ^ 32 - 1) [-32768, 32767]).wellFormed = true := by decide

/-! ## Decoding: words written out from 30_encoding.md R71 to R76 (T-ENC, T-WR) -/

-- OP 0000_0000, ADDR 1111_1111, DATA all ones: the ignored fields are set.
theorem test_decode_nop :
    decode 0b00000000_11111111_11111111111111111111111111111111 = .ok .nop := by decide
-- OP 0000_0001, ADDR 1010_1011, DATA[31:16] 0x1234 ignored, DATA[15:0] 1111_1111_1111_1100 = -4.
theorem test_decode_sample :
    decode 0b00000001_10101011_0001001000110100_1111111111111100 = .ok (.sample (-4)) := by decide
-- OP 0000_0010, DATA 10.
theorem test_decode_blkend :
    decode 0b00000010_00000000_00000000000000000000000000001010 = .ok (.blkend 10) := by decide
-- OP 0000_0011, ADDR 0000_0101 (HOLD), DATA 70000 = 1_0001_0001_0111_0000.
theorem test_decode_wr :
    decode 0b00000011_00000101_00000000000000010001000101110000 = .ok (.wr 5 70000) := by decide
-- OP 0000_0100, ADDR 0001_0010 (NBS).
theorem test_decode_rd :
    decode 0b00000100_00010010_00000000000000000000000000000000 = .ok (.rd 0x12) := by decide
-- OP 0000_0101, ADDR 0100_0010 ignored, DATA 0xDEADBEEF.
theorem test_decode_treset :
    decode 0b00000101_01000010_11011110101011011011111011101111 = .ok (.treset 0xDEADBEEF) := by decide
theorem test_decode_illegal :
    decode 0x060000000000 = .error (.illegalOpcode 6) ∧ decode 0xFF1234567890 = .error (.illegalOpcode 0xFF) ∧
    decode 0x800000000000 = .error (.illegalOpcode 0x80) := by decide
-- 20_memory.md R53: the byte with OP travels last.
theorem test_decode_bytes :
    decodeBytes [0x70, 0x11, 0x01, 0x00, 0x05, 0x03, 0xAA] = .ok (.wr 5 70000, [0xAA]) ∧
    decodeBytes [0x70, 0x11, 0x01, 0x00, 0x05] = .error (.truncated 5) ∧
    decodeBytes [0, 0, 0, 0, 0, 6] = .error (.illegalOpcode 6) := by decide
theorem test_encode_words :
    encode .nop = 0x000000000000 ∧ encode (.sample (-4)) = 0x01000000FFFC ∧ encode (.blkend 10) = 0x02000000000A ∧
    encode (.wr 0x02 0x3F800000) = 0x03023F800000 ∧ encode (.rd 0x1B) = 0x041B00000000 ∧
    encode (.treset 5000) = 0x050000001388 := by decide
theorem test_decode_table_word :
    decodeTableWord 48 0x03023F800000 = some (.wr 0x02 0x3F800000) ∧ decodeTableWord 48 0x070000000000 = none ∧
    decodeTableWord 8 0xFF = some .nop := by decide

/-! ## The assembler (30_encoding.md R79 to R81, T-WR, T-TRESET) -/

theorem test_assemble_wrf : assembleText "wrf COEFF, 3.5".toList = some [.wr 0x02 0x40600000] := by decide +kernel
theorem test_assemble_lines :
    assembleText "  Tone 1000, -300 ; a tone".toList = some [.sample (-300), .blkend 1000] ∧
    assembleText "clr 0x78".toList = some [.wr 0x01 0x78] ∧ assembleText "wr r37, 5".toList = some [.wr 0x25 5] ∧
    assembleText "block 9, 1, -1".toList = some [.sample 1, .sample (-1), .blkend 9] ∧
    assembleText "wr TFLOOR, f-5".toList = some [.wr 0x03 0xC0A00000] ∧
    assembleText "rd DUR10".toList = some [.rd 0x24] ∧ assembleText "; only a comment".toList = some [] := by
  decide +kernel
theorem test_assemble_refuses :
    assembleText "rd r256".toList = none ∧ assembleText "sample 40000".toList = none ∧
    assembleText "jump 5".toList = none ∧ assembleText "blkend".toList = none := by decide +kernel

-- The choices of assumption 12.
theorem test_assemble_choices :
    assembleText "WR coeff, F-0".toList = some [.wr 0x02 0x80000000] ∧
    assembleText "wrf COEFF, .5".toList = some [.wr 0x02 0x3F000000] ∧ assembleText "wrf COEFF, 5.".toList = none ∧
    assembleText "blkend 0X10".toList = some [.blkend 16] ∧ assembleText "rd r0x25".toList = none ∧
    assembleText "clr f1".toList = none := by decide +kernel
-- The names of 30_encoding.md R80 in the order of the indices of 10_state.md R21.
theorem test_register_names :
    (["CTRL", "STATUS", "COEFF", "TFLOOR", "REACT", "HOLD", "SF10", "NBMIN", "GAIN", "MAG", "THR", "LOUD", "LCNT", "Q1",
      "Q2", "SCNT", "UNIT", "WPM", "NBS", "HIGHDUR", "LOWDUR", "HIGHSTART", "LOWSTART", "LASTRAWT", "LASTLOUDT", "CODE",
      "DUR0", "DUR1", "DUR2", "DUR3", "DUR4", "DUR5", "DUR6", "DUR7", "DUR8", "DUR9", "DUR10"].map
        fun name => assembleText ("rd " ++ name).toList) =
    (List.range 37).map fun k => some [.rd (BitVec.ofNat 8 k)] := by decide +kernel

/-! ## binary32 and the table -/

theorem test_float_operations :
    fdiv (fofInt 1) (fofInt 3) = 0x3EAAAAAB ∧ fmul frac (fofInt 100) = 0x41F00001 ∧
    fadd 0x00000001 0x80000001 = 0x00000000 ∧ fsqrt (fofInt 2) = 0x3FB504F3 ∧
    fmul 0x7F7FFFFF 0x40000000 = posInf ∧ fofInt 16777217 = 0x4B800000 := by decide +kernel
-- An invalid operation delivers a NaN, whatever the free value is (00_scope.md R11).
theorem test_invalid_is_nan : isNaN (fsub posInf posInf) = true := by
  have h : fsum posInf (fneg posInf) = none := by decide +kernel
  simp [fsub, h, isNaN_nanPattern]

/-- The key and code of a spelled pattern of International Morse Code. -/
def spelled (code : Byte) (pattern : String) : LutEntry :=
  let syms := pattern.toList.map fun c => if c == '-' then Symbol.dash else Symbol.dot
  ⟨syms.length, symBits syms, code⟩

-- The patterns column of 44_symbol_decoder.md R164.
theorem test_lut_letters : lutLetters =
    [spelled 0x61 ".-", spelled 0x62 "-...", spelled 0x63 "-.-.", spelled 0x64 "-..", spelled 0x65 ".",
     spelled 0x66 "..-.", spelled 0x67 "--.", spelled 0x68 "....", spelled 0x69 "..", spelled 0x6A ".---",
     spelled 0x6B "-.-", spelled 0x6C ".-..", spelled 0x6D "--", spelled 0x6E "-.", spelled 0x6F "---",
     spelled 0x70 ".--.", spelled 0x71 "--.-", spelled 0x72 ".-.", spelled 0x73 "...", spelled 0x74 "-",
     spelled 0x75 "..-", spelled 0x76 "...-", spelled 0x77 ".--", spelled 0x78 "-..-", spelled 0x79 "-.--",
     spelled 0x7A "--.."] := by decide +kernel
theorem test_lut_digits : lutDigits =
    [spelled 0x31 ".----", spelled 0x32 "..---", spelled 0x33 "...--", spelled 0x34 "....-", spelled 0x35 ".....",
     spelled 0x36 "-....", spelled 0x37 "--...", spelled 0x38 "---..", spelled 0x39 "----.",
     spelled 0x30 "-----"] := by decide +kernel
theorem test_lut_punctuation : lutPunctuation =
    [spelled 0x2E ".-.-.-", spelled 0x2C "--..--", spelled 0x3A "---...", spelled 0x3F "..--..", spelled 0x27 ".----.",
     spelled 0x2D "-....-", spelled 0x2F "-..-.", spelled 0x28 "-.--.", spelled 0x29 "-.--.-", spelled 0x22 ".-..-.",
     spelled 0x3D "-...-", spelled 0x2B ".-.-.", spelled 0x40 ".--.-."] := by decide +kernel

/-! ## Commands on small states -/

/-- The answer of a register read in a state. -/
def readBack (a : Byte) (s : State) : Option U32 := (after (.rd a) s).responses.getLast?

/-- Every command answers a next state, `after`. -/
theorem exec_after (i : Instr) (s : State) : exec i s = .next (after i s) := by cases i <;> rfl

theorem test_nop : readBack 0x01 (after .nop State.reset) = some 0x100 := by decide +kernel
-- T-ENC 5.
theorem test_sample :
    let t := after (.sample (-4)) State.reset
    t.q1 = 0xC0800000 ∧ t.q2 = 0 ∧ t.scnt = 1 := by decide +kernel
-- T-GOE 4, the last sample of 1, -1, 1, -1 at COEFF -2.0: Q1 6, Q2 -3 before it.
theorem test_sample_recursion :
    let t := after (.sample (-1)) { State.reset with coeff := 0xC0000000, q1 := 0x40C00000, q2 := 0xC0400000, scnt := 3 }
    t.q1 = 0xC1200000 ∧ t.q2 = 0x40C00000 ∧ t.scnt = 4 := by decide +kernel
-- T-WR 3 and 9.
theorem test_wr :
    readBack 0x05 (after (.wr 0x05 70000) State.reset) = some 0xFFFF ∧
    (after (.wr 0x08 200) State.reset).setGains = [127] := by decide +kernel
-- T-WR 17 and 7.
theorem test_wr_status :
    readBack 0x01 (after (.wr 0x25 5) State.reset) = some 0x108 ∧
    readBack 0x01 (after (.wr 0x07 150) State.reset) = some 0x140 := by decide +kernel
-- T-BUF 7, and P4 step 27.
theorem test_rd :
    let s := { State.reset with code := [.dot, .dash], dur := [80, 240] }
    readBack 0x19 s = some 0x202 ∧ readBack 0x1B s = some 0xF0 ∧ readBack 0x1C s = some 0 := by decide +kernel
-- T-WR 18.
theorem test_rd_unmapped :
    readBack 0xFF State.reset = some 0 ∧ readBack 0x01 (after (.rd 0xFF) State.reset) = some 0x108 := by decide +kernel
-- T-TRESET.
theorem test_treset :
    let t := after (.treset 5000) { State.reset with unit := 80, stallDone := true, filt := .present, wpm := 14 }
    t.highstart = 5000 ∧ t.lowstart = 5000 ∧ t.unit = 0 ∧ t.prevFilt = .present ∧ t.stallDone = false ∧ t.wpm = 14 := by
  decide +kernel
-- P1 step 6.
theorem test_blkend :
    let t := after (.blkend 10) { State.reset with q2 := 0xC1000000, scnt := 4 }
    t.mag = 0x41000000 ∧ t.loud = 0x41000000 ∧ readBack 0x01 t = some 0x180 := by decide +kernel
-- The host's question on a table word: the next step takes and runs it.
theorem test_fetch_word :
    (match step (State.reset.withFetchWord 48 0x0542DEADBEEF) with
     | .next t => decide (t.highstart = 0xDEADBEEF ∧ t.port = [])
     | _ => false) = true := by decide +kernel

/-! ## Witnesses: encoding, steps, reset -/

theorem witness_IgnoredFieldsSelectNothing :
    decode 0x01AB1234FFFC = .ok (.sample (-4)) ∧
    (0x01000000FFFC : CommandWord) &&& usedBits (.sample (-4)) = 0x01AB1234FFFC &&& usedBits (.sample (-4)) ∧
    decode 0x041200000001 = .ok (.rd 0x12) ∧
    (0x0412FFFFFFFF : CommandWord) &&& usedBits (.rd 0x12) = 0x041200000001 &&& usedBits (.rd 0x12) := by decide

theorem witness_EveryWordLegalOrIllegal :
    (opField 0x05FFFFFFFFFF).toNat = 5 ∧ (opField 0x060000000000).toNat = 6 := by decide

theorem witness_AssembledOperandsKeepValues :
    assembleLine .nop = some [.nop] ∧ assembleLine (.sample (-32768)) = some [.sample 0x8000] ∧
    assembleLine (.blkend (2 ^ 32 - 1)) = some [.blkend 0xFFFFFFFF] ∧
    assembleLine (.wr (.raw 255) (.int (2 ^ 32 - 1))) = some [.wr 0xFF 0xFFFFFFFF] ∧
    assembleLine (.rd (.named (.dur 10))) = some [.rd 0x24] ∧ assembleLine (.treset 0) = some [.treset 0] ∧
    assembleLine (.block 9 [1, -1]) = some [.sample 1, .sample (-1), .blkend 9] ∧
    assembleLine (.tone 9 32767) = some [.sample 0x7FFF, .blkend 9] ∧
    assembleLine (.silent 9) = some [.sample 0, .blkend 9] ∧ assembleLine (.clr 0x78) = some [.wr 0x01 0x78] ∧
    assembleLine (.wrf (.raw 2) (.decimal false 35 1)) = some [.wr 0x02 0x40600000] := by decide +kernel

/-- The reset state with one word at its port. -/
def presented (w : CommandWord) : State := { State.reset with port := [.command w] }

theorem witness_StepRunsDecodedCommand :
    (presented 0x010000000004).rst = false ∧ (presented 0x010000000004).port = .command 0x010000000004 :: [] ∧
    decode 0x010000000004 = .ok (.sample 4) := by decide

theorem witness_StepIllegalWordFlagsOnly :
    (presented 0x060000000000).rst = false ∧ (presented 0x060000000000).port = .command 0x060000000000 :: [] ∧
    6 ≤ (opField 0x060000000000).toNat := by decide

theorem witness_StepHoldsStateWithoutInput : State.reset.port = [] := by decide

theorem witness_ResetInputRestoresResetState :
    let s : State := { State.reset with rst := true, port := [.command 0, .rst false] }
    (s.rst = true ∧ s.port = .command 0 :: [.rst false]) ∧
    { s with port := [.rst false] }.port = .rst false :: [] := by decide

theorem witness_RunExecutesCommandsInOrder : State.reset.rst = false := by decide

theorem witness_StepKeepsParameters : step State.reset = .next State.reset := rfl

theorem witness_ResetStateComplete : 1 ≤ tc0.laN.toNat ∧ 1 ≤ { tc0 with laN := 1 }.laN.toNat := by decide

theorem witness_ResetMeetsInvariants : paramsOk tc0 = true := by decide +kernel

/-! ## Witnesses: invariants -/

/-- The registers of the reset state are in range. -/
theorem witness_RegistersInRange : RegistersInRange State.reset where
  params := by decide +kernel
  threshold := by decide +kernel
  codeLength := by decide
  durLength := by decide
  react := by decide
  hold := by decide
  sf10 := by decide
  nbmin := by decide
  nbs := by decide
  gain := by decide
  lcnt := by decide
  coeff := by decide +kernel
  tfloor := by decide +kernel
  wpm := by decide
  mag := by decide +kernel
  atRest := by decide
  marked := by decide

theorem witness_StepKeepsRegistersInRange : RegistersInRange State.reset ∧ step State.reset = .next State.reset :=
  ⟨witness_RegistersInRange, rfl⟩

/-- The outputs of a state that has emitted a character, a space and a gain agree with it. -/
theorem witness_OutputsConsistent :
    OutputsConsistent { State.reset with
      events := [⟨0x74, 1800, []⟩, ⟨0x20, 1800, []⟩], setGains := [56], gain := 56 } where
  lutNoSpace := by decide +kernel
  gainRange := by decide
  lastSpace := by simp [State.reset, State.resetWith]
  firstEvent := by simp
  oneSpace := by decide
  spaceDurs := by simp
  gain := by decide
  gainsInRange := by intro g hg; rw [List.mem_singleton.mp hg]; decide

theorem witness_StepKeepsOutputsConsistent :
    let s : State := { State.reset with
      events := [⟨0x74, 1800, []⟩, ⟨0x20, 1800, []⟩], setGains := [56], gain := 56 }
    OutputsConsistent s ∧ step s = .next s := ⟨witness_OutputsConsistent, rfl⟩

theorem witness_FaultMarkNeverCleared :
    (after (.wr 0x01 0x78) { State.reset with faultMark := true }).faultMark = true ∧
    (after (.rd 0x25) State.reset).errCmd = true ∧ State.reset.errCmd = false ∧
    (after (.wr 0x02 0) { State.reset with scnt := 1 }).errHaz = true ∧
    (after (.blkend 0) { State.reset with q1 := 0x5F800000 }).errNum = true := by decide +kernel

theorem witness_SimultaneousConditions :
    (State.reset.errCmd = false ∧ (after (.wr 0x25 5) State.reset).errCmd = true) ∧
    (State.reset.errHaz = false ∧ (after (.wr 0x02 0) { State.reset with scnt := 1 }).errHaz = true) ∧
    (State.reset.errNum = false ∧ (after (.blkend 0) { State.reset with q1 := 0x5F800000 }).errNum = true) := by
  decide +kernel

theorem witness_ErrorBitsFollowTheirCauses :
    0x25 ≤ (0x25 : Byte).toNat ∧ isNaN 0x7FC00000 = true ∧ (isNaN 0x3F800000 = false ∧ (1 : U32) ≠ 0) ∧
    (0x10 : U32).getLsbD 4 = true ∧ (0x10 : U32).getLsbD 3 = false := by decide +kernel

theorem witness_RegistersChangeOnlyByTheirWriters :
    (∀ v, Instr.nop ≠ .wr 0x00 v) ∧ (∀ now, Instr.wr 0x02 0 ≠ .blkend now) ∧ (∀ v, Instr.wr 0x02 0 ≠ .wr 0x00 v) := by
  refine ⟨nofun, nofun, fun v h => ?_⟩
  injection h with h
  exact absurd h (by decide)

/-- A block size of `n`, no block open. -/
def sized (n : U32) : State := { State.reset with nbs := n }

/-- The boot sequence with no tunable changed. -/
def booting : List Instr := hostBoot 0 [] 0 64

-- A host that keeps its duties: the boot sequence, a block of one sample, a TRESET.
theorem witness_DutifulHostCausesNoHazard :
    (sized 1).errHaz = false ∧
    dutiful Duty.start (sized 1) (booting ++ [.sample 5, .blkend 10, .treset 20]) = true := by decide +kernel

-- 70_reset_and_hazards.md R224: the boot sequence with an NBMIN write that raises NBS; without its GAIN write.
theorem test_first_sample_comes_after_boot :
    dutiful Duty.start State.reset (hostBoot 0 [.wr 0x07 150] 0 64 ++ [.sample 1]) = true ∧
    dutiful Duty.start State.reset [.rd 0x12, .wr 0x02 0, .wr 0x01 0x78, .sample 1] = false := by decide +kernel

-- 70_reset_and_hazards.md R226: a read inside the block does not change its length, at the boundary it counts.
theorem test_block_keeps_its_length :
    dutiful Duty.start (sized 2) (booting ++ [.sample 1, .wr 0x07 150, .rd 0x12, .sample 1, .blkend 10]) = true ∧
    dutiful Duty.start (sized 2) (booting ++ [.sample 1, .blkend 10]) = false := by decide +kernel

/-- A block of two samples inside which NBMIN raises NBS to 3 and NBS_CHG is set. -/
def resizedBlock : List Instr := [.sample 1, .wr 0x07 3, .sample 1, .blkend 10]

-- 70_reset_and_hazards.md R227: NBS_CHG left at 1 asks for a read of NBS and a COEFF write, also where NBS
-- holds the size read before (`back`, in which NBS is put at 2 again).
theorem test_resize_is_answered :
    let d := Duty.start.nextAll (sized 2) (booting ++ resizedBlock)
    let back : State := { afterAll (booting ++ resizedBlock) (sized 2) with nbs := 2 }
    dutiful d back (hostResize 0 ++ [.sample 1]) = true ∧ dutiful d back [.wr 0x01 0x40, .sample 1] = false ∧
    dutiful d back [.wr 0x02 0, .rd 0x12, .wr 0x01 0x40, .sample 1] = false := by decide +kernel

-- 70_reset_and_hazards.md R230: with a block open, too, a scan is left with a TRESET before the next SAMPLE.
theorem test_scan_is_left_before_sample :
    dutiful Duty.start (sized 2) (booting ++ [.wr 0x00 1, .sample 1, .wr 0x00 0, .sample 1]) = false ∧
    dutiful Duty.start (sized 1)
      (booting ++ [.wr 0x00 1, .sample 1, .blkend 10] ++ hostScanExit 0 0 20 ++ [.sample 1]) = true ∧
    dutiful Duty.start (sized 1)
      (booting ++ [.wr 0x00 1, .sample 1, .blkend 10, .wr 0x00 0, .treset 20, .sample 1]) = false := by
  decide +kernel

-- Runs that keep the duties and meet the hypotheses of its clauses: the boot, a block, a BLKEND and an NBMIN write that leave
-- NBS_CHG at 1, a scan left.
theorem witness_DutifulHostBootsFillsResizesAndLeavesScans :
    let within : List Instr := [.wr 0x07 3, .sample 1]
    let acquired : List Instr := [.blkend 10, .wr 0x02 0]
    dutiful Duty.start (sized 2) (booting ++ [Instr.sample 1]) = true ∧
    (dutiful Duty.start (sized 2) (booting ++ Instr.sample 1 :: within ++ [Instr.blkend 10]) = true ∧
      (afterAll booting (sized 2)).scnt = 0) ∧
    (dutiful Duty.start (sized 2)
        (booting ++ Instr.sample 1 :: within ++ Instr.blkend 10 :: hostResize 0 ++ [Instr.sample 1]) = true ∧
      (afterAll (booting ++ resizedBlock) (sized 2)).nbsChg = true ∧
      (afterAll (booting ++ resizedBlock ++ hostResize 0) (sized 2)).scnt = 0) ∧
    (dutiful Duty.start (sized 2) (booting ++ Instr.wr 0x07 3 :: hostResize 0 ++ [Instr.sample 1]) = true ∧
      (afterAll (booting ++ [.wr 0x07 3]) (sized 2)).nbsChg = true ∧
      (afterAll (booting ++ Instr.wr 0x07 3 :: hostResize 0) (sized 2)).scnt = 0) ∧
    (dutiful Duty.start (sized 1) (booting ++ [Instr.wr 0x00 1] ++ Instr.sample 1 :: acquired ++ Instr.wr 0x00 0 ::
        [Instr.treset 20] ++ [Instr.sample 1]) = true ∧
      (afterAll (booting ++ [Instr.wr 0x00 1] ++ Instr.sample 1 :: acquired) (sized 1)).scan = true ∧
      (0 : U32).getLsbD 0 = false) := by decide +kernel

/-! ## Witnesses: registers -/

theorem witness_SampleRunsFilterStep : opField 0x010000008000 = 0x01 ∧ opField 0x01FFFFFF7FFF = 0x01 := by decide
theorem witness_RdDecodes : opField 0x0412FFFFFFFF = 0x04 := by decide
theorem witness_NopLeavesEverything : opField 0x00FFFFFFFFFF = 0x00 := by decide
theorem witness_TresetResetsTimingRecord : opField 0x0542DEADBEEF = 0x05 := by decide

theorem witness_RdRespondsRegisterImage :
    State.reset.code.length ≤ 7 ∧ [Symbol.dot, .dot, .dash, .dot, .dot, .dash, .dash].length ≤ 7 ∧ 10 < 11 ∧
    0x25 ≤ (0x25 : Byte).toNat ∧ 0x25 ≤ (0xFF : Byte).toNat := by decide

theorem witness_WrCoefficientClampsOrRejects :
    isNaN 0x7FC00000 = true ∧ isNaN 0xFF800001 = true ∧
    (isNaN 0xFF800000 = false ∧ flt 0xFF800000 0xC0000000 = true) ∧
    (isNaN 0x40600000 = false ∧ flt 0x40000000 0x40600000 = true) ∧
    (isNaN 0xC0000000 = false ∧ fle 0xC0000000 0xC0000000 = true ∧ fle 0xC0000000 0x40000000 = true) := by
  decide +kernel

theorem witness_WrThresholdFloorKeepsInvariant :
    (isNaN 0x7F800001 = true ∨ (0x7F800001 : F32) = 0x7F800000) ∧
    (isNaN 0xFF800000 = false ∧ (0xFF800000 : F32) ≠ 0x7F800000 ∧ flt 0xFF800000 0 = true) ∧
    (isNaN 0x80000000 = false ∧ flt 0x80000000 0 = false) ∧ fle 0 0x00000000 = true ∧ fle 0 0x7F7FFFFF = true ∧
    fge State.reset.thr 0x42C80000 = true ∧ fge State.reset.thr 0x437A0000 = false := by decide +kernel

theorem witness_WrBlockSizeFloorRaisesSize :
    State.reset.nbs.toNat < (150 : U32).toNat ∧ (143 : U32).toNat ≤ State.reset.nbs.toNat := by decide

theorem witness_UnmappedAndReadOnlyAccesses :
    0x25 ≤ (0x25 : Byte).toNat ∧ (0x09 ≤ (0x09 : Byte).toNat ∧ (0x09 : Byte).toNat ≤ 0x24) ∧
    (0x09 ≤ (0x24 : Byte).toNat ∧ (0x24 : Byte).toNat ≤ 0x24) := by decide

/-! ## Witnesses: BLKEND -/

/-- A one-sample block of amplitude `x` in a state. -/
def block (x : Int) (s : State) : State := { s with q1 := fofInt x, q2 := 0, scnt := 1 }

/-- A tone that follows a low run from time 0, at unit 80 with "-" in the buffer (T-GAP): BLKEND `l` ends a gap of `l`. -/
def gap (wpm sf10 : U32) : State :=
  block 300 { State.reset with
    hold := 0, unit := 80, wpm := wpm, sf10 := sf10, nbs := 114, code := [.dash], dur := [240], lastSpace := false }

/-- Silence that follows a high run from time 0 at the unit `u` (T-UNIT): BLKEND `h` ends a mark of `h`. -/
def mark (u : U32) (code : List Symbol) : State :=
  block 0 { State.reset with
    hold := 0, unit := u, raw := .present, filt := .present, prevRaw := .present, prevFilt := .present,
    code := code, dur := code.map fun _ => u }

/-- Silence after ".-" with its low run from 2720 on (T-STALL). -/
def stale : State :=
  block 0 { State.reset with highdur := 80, lowstart := 2720, code := [.dot, .dash], dur := [80, 240], lastSpace := false }

/-- A block of magnitude `x` with one loudness sample taken (T-GAIN). -/
def loudness (x : Int) (g : U32) : State := block x { State.reset with lcnt := 1, gain := g }

-- T-GOE 8, 9, 10, a value below zero overflow, and an ordinary block.
theorem witness_BlkendComputesMagnitude :
    let m2 (q1 q2 c : F32) := fsub (fadd (fmul q1 q1) (fmul q2 q2)) (fmul (fmul q1 q2) c)
    isNaN (m2 0x5F800000 0x5F800000 0x40000000) = true ∧ m2 0x5F800000 0 0 = 0x7F800000 ∧
    m2 0x5E800000 0x5E800000 0x5F800000 = 0xFF800000 ∧
    (isFinite (m2 0x5F000000 0x5F000000 0x40000000) = true ∧ fle (m2 0x5F000000 0x5F000000 0x40000000) 0 = true) ∧
    (isFinite (m2 0 0xC1000000 0) = true ∧ flt 0 (m2 0 0xC1000000 0) = true) :=
  ⟨by
    have ha : fadd (fmul 0x5F800000 0x5F800000) (fmul 0x5F800000 0x5F800000) = posInf := by decide +kernel
    have hp : fmul (fmul 0x5F800000 0x5F800000) 0x40000000 = posInf := by decide +kernel
    beta_reduce; rw [ha, hp]; exact test_invalid_is_nan, by decide +kernel⟩

theorem test_magnitude_of_overflow :
    let t := after (.blkend 1) { State.reset with q1 := 0x5F800000 }
    t.mag = posInf ∧ t.thr = posInf ∧ t.raw = .absent ∧ t.errNum = true := by decide +kernel

theorem witness_EmptyBlockHasZeroMagnitude : RegistersInRange State.reset ∧ State.reset.scnt = 0 :=
  ⟨witness_RegistersInRange, rfl⟩

theorem witness_OneSampleBlockMagnitudeExact :
    State.reset.coeff = 0 ∧ State.reset.q1 = 0 ∧ State.reset.q2 = 0 ∧ (4096 : I16).toInt.natAbs ≤ 4096 ∧
    (-4096 : I16).toInt.natAbs ≤ 4096 := by decide

-- T-THR 9: a NaN average is replaced by the floor.
theorem test_nan_threshold :
    (thresholdUpdate { State.reset with thr := posInf, mag := 0x43FA0000 }).thr = 0x42C80000 := by
  have hm : fgt 0x43FA0000 0x42C80000 = true := by decide +kernel
  have hd : fdiv (fsub 0x43FA0000 posInf) (fofU32 6) = negInf := by decide +kernel
  have hs : fadd posInf negInf = nanPattern .add posInf negInf := by
    have h : fsum posInf negInf = none := by decide +kernel
    rw [fadd, h]; rfl
  have ht : thresholdAverage { State.reset with thr := posInf, mag := 0x43FA0000 } = nanPattern .add posInf negInf := by
    rw [← hs, ← hd]; exact if_pos hm
  simp only [thresholdUpdate, ht, fge, fle, isNaN_nanPattern, Bool.not_true, Bool.and_false, Bool.false_and]
  rfl

-- T-THR 1 and 3, and a threshold below the floor.
theorem witness_ThresholdFollowsMagnitude :
    (after (.blkend 1) (block 700 State.reset)).thr = 0x43480000 ∧
    (after (.blkend 1) (block 50 { State.reset with thr := 0x43480000 })).thr = 0x43480000 ∧
    (after (.blkend 1) (block 0 { State.reset with thr := 0x42480000 })).thr = 0x42C80000 := by decide +kernel

theorem witness_ThresholdNeverBelowFloor :
    isNaN State.reset.tfloor = false ∧ fge State.reset.thr State.reset.tfloor = true ∧
    fgt (after (.blkend 1) (block 100 State.reset)).mag State.reset.tfloor = false := by decide +kernel

-- T-THR 5 and 7.
theorem witness_ComparatorSetsRaw :
    (after (.blkend 1) (block 31 State.reset)).raw = .present ∧
    (after (.blkend 1) { State.reset with q1 := 0x41F00001 }).raw = .absent := by decide +kernel

-- T-DEB 1, 5 and 6.
theorem witness_DebouncerCommitsAfterHold :
    let s : State := { State.reset with prevRaw := .present, lastrawt := 111 }
    (after (.blkend 100) (block 300 State.reset)).lastrawt = 100 ∧
    (after (.blkend 116) (block 300 s)).filt = .absent ∧
    (after (.blkend 117) (block 300 s)).filt = .present := by decide +kernel

theorem witness_ScanningSuspendsDecoding :
    let s : State := { mark 80 [] with scan := true }
    s.scan = true ∧ (after (.blkend 240) s).prevFilt = .absent ∧ s.prevFilt = .present := by decide +kernel

-- T-GAP 1, 2, 3, 4, 15, 18.
theorem witness_RisingEdgeClassifiesGap :
    (gap 14 50).scan = false ∧ (gap 14 50).prevFilt = .absent ∧ (after (.blkend 159) (gap 14 50)).filt = .present ∧
    (after (.blkend 159) (gap 14 50)).code = [.dash] ∧
    (after (.blkend 160) (gap 14 50)).events = [⟨0x74, 160, []⟩] ∧
    (after (.blkend 399) (gap 14 50)).events = [⟨0x74, 399, []⟩] ∧
    (after (.blkend 400) (gap 14 50)).events = [⟨0x74, 400, []⟩, ⟨0x20, 400, []⟩] ∧
    (after (.blkend 400) (gap 14 80)).events = [] ∧
    (after (.blkend 400) { gap 14 50 with code := [], dur := [], lastSpace := true }).events = [] := by decide +kernel

-- T-UNIT-1: 80/240, 80/401, 0/2, 1/0.
theorem witness_FallingEdgeUpdatesUnit :
    (mark 80 []).scan = false ∧ (mark 80 []).prevFilt = .present ∧ (after (.blkend 240) (mark 80 [])).filt = .absent ∧
    (after (.blkend 240) (mark 80 [])).unit = 80 ∧ (after (.blkend 401) (mark 80 [])).unit = 481 ∧
    (after (.blkend 2) (mark 0 [])).unit = 2 ∧ (after (.blkend 0) (mark 1 [])).unit = 0 := by decide +kernel

-- T-UNIT-1 and T-WPM 1, 8: a dash, a dot, noise, and the overflow of T-BUF 1.
theorem witness_FallingEdgeClassifiesMark :
    (mark 80 []).scan = false ∧ (mark 80 []).prevFilt = .present ∧
    (after (.blkend 240) (mark 80 [])).code = [.dash] ∧ (after (.blkend 240) (mark 80 [])).wpm = 7 ∧
    (after (.blkend 240) (mark 80 [])).nbs = 127 ∧ (after (.blkend 1) (mark 0 [])).code = [.dot] ∧
    (after (.blkend 1) (mark 0 [])).nbs = 40 ∧ (after (.blkend 0) (mark 1 [])).code = [] ∧
    (after (.blkend 80) (mark 80 (List.replicate 7 .dot))).code = [] := by decide +kernel

-- T-STALL 1 and 2, and an edge.
theorem witness_StallGuardFlushesOnce :
    stale.scan = false ∧ (after (.blkend 3200) stale).filt = stale.prevFilt ∧
    (after (.blkend 3200) stale).stallDone = false ∧ (after (.blkend 3201) stale).filt = stale.prevFilt ∧
    (after (.blkend 3201) stale).events = [⟨0x61, 3201, []⟩] ∧ (after (.blkend 3201) stale).stallDone = true ∧
    (after (.blkend 240) (mark 80 [])).filt = .absent ∧ (mark 80 []).prevFilt = .present := by
  decide +kernel

-- T-BUF 5 and 6.
theorem witness_CharacterLookupIsExact :
    lutKeysDistinct State.reset.cfg.charLut = true ∧
    decodeBuffer { State.reset with code := [.dot, .dot, .dash, .dash, .dot, .dot] } = some 0x3F ∧
    decodeBuffer { State.reset with code := [.dash, .dash, .dash, .dash] } = none ∧
    symBits [.dot, .dash] = symBits [.dot, .dash] := by decide +kernel

theorem witness_PassEmitsAtMostTwoEvents :
    (after (.blkend 400) { gap 14 50 with diag := true }).events = [⟨0x74, 400, [240]⟩, ⟨0x20, 400, []⟩] := by
  decide +kernel

-- T-GAIN 1 to 6, 7, 11.
theorem witness_GainLoopCorrectsByBand :
    (after (.blkend 500) (block 2000 State.reset)).gain = 64 ∧
    (after (.blkend 500) (loudness 2000 64)).setGains = [56] ∧ (after (.blkend 500) (loudness 1200 64)).gain = 62 ∧
    (after (.blkend 500) (loudness 200 64)).lcnt = 2 ∧ (after (.blkend 500) (loudness 40 64)).gain = 65 ∧
    (after (.blkend 500) (loudness 0 64)).gain = 68 ∧
    (after (.blkend 500) { loudness 0 64 with loudSeen := true, lastloudt := 450 }).gain = 64 ∧
    (after (.blkend 500) (loudness 2000 0)).setGains = [] ∧
    (after (.blkend 500) (loudness 2000 0)).lastloudt = 500 := by decide +kernel

theorem witness_SpeedEstimateConverges :
    (1 ≤ unitMillis .dot 80 ∧ unitMillis .dot 80 ≤ 1200) ∧ (1 ≤ unitMillis .dash 3 ∧ unitMillis .dash 3 ≤ 1200) ∧
    (1 ≤ unitMillis .dash 3602 ∧ unitMillis .dash 3602 ≤ 1200) ∧ State.reset.wpm = 0 ∧
    State.reset.wpm.toNat < 1200 / unitMillis .dot 80 ∧
    { State.reset with wpm := 15 }.wpm.toNat = 1200 / unitMillis .dot 80 ∧
    1200 / unitMillis .dot 80 < { State.reset with wpm := 16 }.wpm.toNat := by decide

/-! ## Witnesses: binary32 -/

theorem witness_RoundingIsNearestEven :
    0 < 3 ∧ roundMag 7 3 = 2 ∧ roundMag 7 2 = 4 ∧ roundMag ((2 ^ 25 - 1) * 2 ^ 252) 1 = infMag ∧
    roundMag ((2 ^ 25 - 1) * 2 ^ 252 - 1) 1 < infMag := by decide +kernel

theorem witness_OperationsRoundExactResult :
    let one : F32 := 0x3F800000
    let three : F32 := 0x40400000
    isFinite one = true ∧ isFinite three = true ∧ isFinite 0x7F7FFFFF = true ∧
    isFinite (fadd one three) = true ∧ isFinite (fsub one three) = true ∧ isFinite (fmul one three) = true ∧
    (isZero three = false ∧ isFinite (fdiv one three) = true) ∧ three.msb = false ∧
    fval (fsqrt three) < fval three ∧ (0 ≤ fval one ∧ fval one < fval (fsqrt three)) := by decide +kernel

-- Each hypothesis, and each way to a NaN, an infinity and a zero.
theorem witness_OperationsOnSpecialValues :
    (isInf negInf = true ∧ isFinite 0x3F800000 = true) ∧ (isInf posInf = true ∧ posInf.msb ≠ negInf.msb) ∧
    isNaN (fsub 0x3F800000 posInf) = false ∧ isNaN (fmul negInf 0x3F800000) = false ∧
    isNaN (fdiv 0x3F800000 0x80000000) = false ∧ isNaN (fdiv 0x3F800000 negInf) = false ∧
    fval 0x3F800000 + fval 0xBF800000 = 0 ∧ fval 0x3F800000 + fval 0x00000001 ≠ 0 ∧
    isInf (fadd 0x7F7FFFFF 0x73000000) = true ∧ isInf (fadd 0x7F7FFFFF 0x72FFFFFF) = false ∧
    (isZero 0x3F000000 = false ∧ isInf (fdiv 0x7F7FFFFF 0x3F000000) = true) ∧ (0x7F7FFFFF : F32).msb = false := by
  decide +kernel

-- 2^24 + 1, half the least subnormal, and 1.5 of it lie midway between their neighbours; for the root, 2 and its successor.
theorem witness_OperationTiesRoundToEven :
    let near (v : Int) (exact : Int) := (v - exact).natAbs
    (near (fval 0x4B800000) (fval 0x4B800000 + fval 0x3F800000) = near (fval 0x4B800001) (fval 0x4B800000 + fval 0x3F800000) ∧
      fadd 0x4B800000 0x3F800000 = 0x4B800000 ∧ fsub 0x4B800000 0xBF800000 = 0x4B800000) ∧
    (near (fval 0x00000002 * 2 ^ 149) (fval 0x00000003 * fval 0x3F000000) =
        near (fval 0x00000001 * 2 ^ 149) (fval 0x00000003 * fval 0x3F000000) ∧ fmul 0x00000003 0x3F000000 = 0x00000002) ∧
    (near (fval 0x00000000 * fval 0x40000000) (fval 0x00000001 * 2 ^ 149) =
        near (fval 0x00000001 * fval 0x40000000) (fval 0x00000001 * 2 ^ 149) ∧ fdiv 0x00000001 0x40000000 = 0x00000000) ∧
    ((0x40800000 : F32).msb = false ∧ 0 ≤ fval 0x40000001 ∧ fval 0x40000001 ≠ fval (fsqrt 0x40800000)) := by
  decide +kernel

-- A value between two neighbours, at their midpoint, and at the two sides of the overflow.
theorem witness_FloatLiteralsAreNearest :
    floatLiteral (.decimal false 1 1) = 0x3DCCCCCD ∧ floatLiteral (.decimal true 16777217 0) = 0xCB800000 ∧
    isFinite (floatLiteral (.decimal false 16777219 0)) = true ∧
    isInf (floatLiteral (.decimal false ((2 ^ 25 - 1) * 2 ^ 103) 0)) = true ∧
    isFinite (floatLiteral (.decimal false ((2 ^ 25 - 1) * 2 ^ 103 - 1) 0)) = true := by decide +kernel

theorem witness_ComparisonsOrderValues :
    (isFinite 0x80000000 = true ∧ isFinite 0x00000000 = true ∧ fge 0x80000000 0x00000000 = true ∧
      fgt 0x00000001 0x80000000 = true) ∧
    (isNaN 0xFF7FFFFF = false ∧ isNaN negInf = false ∧ isInf negInf = true ∧ fgt 0xFF7FFFFF negInf = true) ∧
    (isNaN posInf = false ∧ isInf posInf = true ∧ fge posInf posInf = true ∧ fgt posInf posInf = false) ∧
    (isNaN 0x7FC00000 = true ∨ isNaN 0x00000000 = true) := by decide +kernel

-- The largest subnormal, the least normal and the largest finite pattern, 1.0, and an integer at the bound.
theorem witness_PatternsHaveClassAndValue :
    (isFinite 0x007FFFFF = true ∧ fval 0x007FFFFF = 2 ^ 23 - 1) ∧ (isFinite 0x80800000 = true ∧ fval 0x80800000 = -(2 ^ 23)) ∧
    (isFinite 0x7F7FFFFF = true ∧ fval 0x7F7FFFFF = (2 ^ 24 - 1) * 2 ^ 253) ∧ fval 0x3F800000 = 2 ^ 149 ∧
    ((-(2 ^ 24) : Int).natAbs ≤ 2 ^ 24 ∧ fofInt (-(2 ^ 24)) = 0xCB800000) := by decide +kernel

end Sys2Proof.Tests
end

section
/-! PROOFS. The host's writes to the tunables COEFF, TFLOOR, REACT, HOLD, SF10 and NBMIN (10_state.md R24 to R29): first
what a WR, a clamp and a stored floor are, then what each write leaves behind. -/
namespace Sys2Proof.Machine

/-! ## WR and the integer clamp -/

theorem exec_wr (a : Byte) (v : U32) (s : State) : exec (.wr a v) s = .next (regWrite a v s) := rfl

theorem exec_wr_mapped {a : Byte} {r : Reg} (h : regOfIndex a = some r) (v : U32) (s : State) :
    exec (.wr a v) s = .next (writeReg r v s) := by
  rw [exec_wr, regWrite, h]

/-- The clamp is exact: one of its three naturals is a register's value, so none is cut to 32 bits. -/
theorem toNat_clampU32 (lo hi v : U32) : (clampU32 lo hi v).toNat = max lo.toNat (min hi.toNat v.toNat) := by
  have hlo := lo.isLt
  have hv := v.isLt
  rw [clampU32, BitVec.toNat_ofNat]
  exact Nat.mod_eq_of_lt (by omega)

/-! ## The order on patterns -/

theorem flt_iff {a b : F32} : flt a b = true ↔ isNaN a = false ∧ isNaN b = false ∧ fkey a < fkey b := by
  simp [flt, and_assoc]

theorem fle_iff {a b : F32} : fle a b = true ↔ isNaN a = false ∧ isNaN b = false ∧ fkey a ≤ fkey b := by
  simp [fle, and_assoc]

theorem flt_eq_false_of_fle {a b : F32} (h : fle a b = true) : flt b a = false := by
  obtain ⟨-, -, hab⟩ := fle_iff.1 h
  rw [Bool.eq_false_iff]
  intro hba
  obtain ⟨-, -, hlt⟩ := flt_iff.1 hba
  omega

theorem fle_of_fle_of_flt {a b c : F32} (hab : fle a b = true) (hbc : flt b c = true) : fle a c = true := by
  obtain ⟨ha, -, hle⟩ := fle_iff.1 hab
  obtain ⟨-, hc, hlt⟩ := flt_iff.1 hbc
  exact fle_iff.2 ⟨ha, hc, by omega⟩

theorem fkey_zero : fkey 0 = 0 := by decide

theorem fkey_of_msb_false {x : F32} (h : x.msb = false) : fkey x = fmag x := by simp [fkey, h]

theorem fkey_of_msb_true {x : F32} (h : x.msb = true) : fkey x = -(fmag x : Int) := by simp [fkey, h]

/-! ## The clamp of patterns -/

theorem fclamp_of_flt_lo {lo hi v : F32} (h : flt v lo = true) : fclamp lo hi v = lo := if_pos h

theorem fclamp_of_flt_hi {lo hi v : F32} (hb : fle lo hi = true) (h : flt hi v = true) : fclamp lo hi v = hi := by
  have hlo : flt v lo = false := flt_eq_false_of_fle (fle_of_fle_of_flt hb h)
  simp [fclamp, hlo, h]

theorem fclamp_of_between {lo hi v : F32} (h1 : fle lo v = true) (h2 : fle v hi = true) : fclamp lo hi v = v := by
  simp [fclamp, flt_eq_false_of_fle h1, flt_eq_false_of_fle h2]

/-! ## COEFF (10_state.md R24) -/

theorem coeffMin_fle_coeffMax : fle coeffMin coeffMax = true := by decide

theorem writeCoeff_of_isNaN {v : F32} (h : isNaN v = true) (s : State) : writeCoeff v s = s.flag .cmd := if_pos h

/-- The hazard of an open block, field by field (60_exceptions.md R202). -/
theorem flag_haz_if_open (s : State) : (if s.scnt ≠ 0 then s.flag .haz else s) =
    { s with errHaz := s.errHaz || decide (s.scnt ≠ 0), faultMark := s.faultMark || decide (s.scnt ≠ 0) } := by
  by_cases h : s.scnt ≠ 0
  · rw [if_pos h, decide_eq_true h, Bool.or_true, Bool.or_true]; rfl
  · rw [if_neg h, decide_eq_false h, Bool.or_false, Bool.or_false]

theorem writeCoeff_of_not_isNaN {v : F32} (h : isNaN v = false) (s : State) :
    writeCoeff v s = { s with
      coeff := fclamp coeffMin coeffMax v
      errHaz := s.errHaz || decide (s.scnt ≠ 0)
      faultMark := s.faultMark || decide (s.scnt ≠ 0) } := by
  rw [writeCoeff, if_neg (by simp [h]), flag_haz_if_open]

/-! ## TFLOOR (10_state.md R25) -/

theorem floorValue_of_msb_true {v : F32} (h : v.msb = true) : floorValue v = 0 := if_pos h

theorem floorValue_of_msb_false {v : F32} (h : v.msb = false) : floorValue v = v := by simp [floorValue, h]

theorem msb_of_flt_zero {v : F32} (h : flt v 0 = true) : v.msb = true := by
  obtain ⟨-, -, hlt⟩ := flt_iff.1 h
  by_contra hm
  rw [fkey_of_msb_false (Bool.eq_false_iff.2 hm), fkey_zero] at hlt
  omega

/-- A pattern at or above zero carries a sign bit only as -0.0. -/
theorem msb_of_zero_fle {v : F32} (h : fle 0 v = true) (hv : v ≠ 0x80000000) : v.msb = false := by
  obtain ⟨-, -, hle⟩ := fle_iff.1 h
  rw [Bool.eq_false_iff]
  intro hm
  rw [fkey_of_msb_true hm, fkey_zero] at hle
  have hmag : fmag v = 0 := by omega
  have hnegZero : v = fpack true 0 := by rw [← fpack_msb_fmag v, hm, hmag]
  exact hv hnegZero

/-- With NaN and +inf rejected, what a TFLOOR write stores is finite (-inf stores +0.0). -/
theorem isFinite_floorValue {v : F32} (hn : isNaN v = false) (hi : v ≠ posInf) : isFinite (floorValue v) = true := by
  cases hm : v.msb with
  | true => rw [floorValue_of_msb_true hm]; decide
  | false =>
    rw [floorValue_of_msb_false hm]
    have hinf : fmag v ≠ infMag := fun h => hi (by rw [← fpack_msb_fmag v, hm, h]; rfl)
    simp only [isNaN, isFinite, decide_eq_false_iff_not, decide_eq_true_eq] at hn ⊢
    omega

theorem fge_floorValue_zero {v : F32} (hn : isNaN v = false) : fge (floorValue v) 0 = true := by
  cases hm : v.msb with
  | true => rw [floorValue_of_msb_true hm]; decide
  | false =>
    rw [floorValue_of_msb_false hm]
    exact fle_iff.2 ⟨by decide, hn, by rw [fkey_of_msb_false hm, fkey_zero]; omega⟩

/-- THR after a write of the floor `f`: kept where it is at or above it, otherwise raised to it. -/
def raisedThreshold (thr f : F32) : F32 := if fge thr f then thr else f

theorem raisedThreshold_of_fge {thr f : F32} (h : fge thr f = true) : raisedThreshold thr f = thr := if_pos h

theorem raisedThreshold_of_not_fge {thr f : F32} (h : fge thr f = false) : raisedThreshold thr f = f := by
  simp [raisedThreshold, h]

theorem fge_raisedThreshold {thr f : F32} (hf : isNaN f = false) : fge (raisedThreshold thr f) f = true := by
  cases h : fge thr f with
  | true => rw [raisedThreshold_of_fge h, h]
  | false => rw [raisedThreshold_of_not_fge h, fge_self hf]

theorem writeTfloor_of_rejected {v : F32} (h : isNaN v = true ∨ v = posInf) (s : State) :
    writeTfloor v s = s.flag .cmd := if_pos (by simpa using h)

theorem writeTfloor_of_stored {v : F32} (hn : isNaN v = false) (hi : v ≠ posInf) (s : State) :
    writeTfloor v s = { s with tfloor := floorValue v, thr := raisedThreshold s.thr (floorValue v) } :=
  if_neg (by simp [hn, hi])

/-! ## NBMIN (10_state.md R29) -/

theorem writeNbmin_of_lt {v : U32} {s : State} (h : s.nbs.toNat < (clampU32 1 s.cfg.nbMax v).toNat) :
    writeNbmin v s =
      { s with nbmin := clampU32 1 s.cfg.nbMax v, nbs := clampU32 1 s.cfg.nbMax v, nbsChg := true } :=
  if_pos (BitVec.lt_def.2 h)

theorem writeNbmin_of_le {v : U32} {s : State} (h : (clampU32 1 s.cfg.nbMax v).toNat ≤ s.nbs.toNat) :
    writeNbmin v s = { s with nbmin := clampU32 1 s.cfg.nbMax v } :=
  if_neg (by rw [BitVec.lt_def]; omega)

/-! ## The obligations -/

/-- Settles O28: the branches of `writeCoeff`, with `fclamp` read on each side of its bounds. -/
theorem wrCoefficientClampsOrRejects : Obligations.WrCoefficientClampsOrRejects := by
  have hwr : ∀ v s, exec (.wr 0x02 v) s = .next (writeCoeff v s) := exec_wr_mapped (r := .coeff) rfl
  refine ⟨fun v s hn => ?nan, fun v s hn => ⟨fclamp coeffMin coeffMax v, ?stored, ?_⟩, fun _ => rfl⟩
  case nan => rw [hwr, writeCoeff_of_isNaN hn]; rfl
  case stored => rw [hwr, writeCoeff_of_not_isNaN hn]
  obtain ⟨-, hlo, hhi⟩ := fclamp_between hn coeffMin_fle_coeffMax
  exact ⟨fclamp_of_flt_lo, fclamp_of_flt_hi coeffMin_fle_coeffMax, fclamp_of_between,
    isFinite_of_coeff_range hlo hhi, hlo, hhi⟩

/-- Settles O29: the stored value by its sign bit, THR by its comparison with that value. -/
theorem wrThresholdFloorKeepsInvariant : Obligations.WrThresholdFloorKeepsInvariant := by
  have hwr : ∀ v s, exec (.wr 0x03 v) s = .next (writeTfloor v s) := exec_wr_mapped (r := .tfloor) rfl
  refine ⟨fun v s h => ?rejected, fun v s hn hi =>
    ⟨floorValue v, raisedThreshold s.thr (floorValue v), ?stored, ?negative, ?nonneg, ?_⟩, fun _ => rfl⟩
  case rejected => rw [hwr, writeTfloor_of_rejected h]; rfl
  case stored => rw [hwr, writeTfloor_of_stored hn hi]
  case negative =>
    rintro (hneg | rfl)
    · exact floorValue_of_msb_true (msb_of_flt_zero hneg)
    · rfl
  case nonneg => exact fun h hv => floorValue_of_msb_false (msb_of_zero_fle h hv)
  have hfin : isFinite (floorValue v) = true := isFinite_floorValue hn hi
  exact ⟨raisedThreshold_of_fge, raisedThreshold_of_not_fge, hfin, fge_floorValue_zero hn,
    fge_raisedThreshold (isNaN_of_isFinite hfin)⟩

/-- Settles O30: each of the three writes is one clamp, which is exact. -/
theorem wrIntegerTunablesClamp : Obligations.WrIntegerTunablesClamp := by
  refine ⟨fun v s => ⟨clampU32 1 255 v, exec_wr_mapped (r := .react) rfl v s, toNat_clampU32 1 255 v⟩,
    fun v s => ⟨clampU32 0 s.cfg.holdMax v, exec_wr_mapped (r := .hold) rfl v s, ?hold⟩,
    fun v s => ⟨clampU32 10 100 v, exec_wr_mapped (r := .sf10) rfl v s, toNat_clampU32 10 100 v⟩,
    fun _ => ⟨rfl, rfl, rfl⟩⟩
  case hold => rw [toNat_clampU32]; exact Nat.zero_max _

/-- Settles O31: the two branches of `writeNbmin`. -/
theorem wrBlockSizeFloorRaisesSize : Obligations.WrBlockSizeFloorRaisesSize := by
  have hwr : ∀ v s, exec (.wr 0x07 v) s = .next (writeNbmin v s) := exec_wr_mapped (r := .nbmin) rfl
  refine ⟨fun v s => ⟨clampU32 1 s.cfg.nbMax v, toNat_clampU32 1 s.cfg.nbMax v, fun h => ?raised, fun h => ?kept⟩,
    fun _ => rfl⟩
  case raised => rw [hwr, writeNbmin_of_lt h]
  case kept => rw [hwr, writeNbmin_of_le h]

end Sys2Proof.Machine
end

section
/-! PROOFS. Accesses outside the writable registers (20_memory.md R57): which indices are mapped, what RD and WR do on a
mapped and on an unmapped index, that a read-only register ignores a WR, and the reserved bits of CTRL and STATUS. -/
namespace Sys2Proof.Machine

/-! ## The index space (20_memory.md R50) -/

theorem regOfIndex_eq_none_iff {a : Byte} : regOfIndex a = none ↔ 0x25 ≤ a.toNat := List.getElem?_eq_none_iff

/-- The read-only registers: the map 10_state.md R21 from index 0x09 on. -/
def readOnlyRegs : List Reg := regTable.drop 0x09

theorem mem_readOnlyRegs_of_regOfIndex {a : Byte} {r : Reg} (h : regOfIndex a = some r) (ha : 0x09 ≤ a.toNat) :
    r ∈ readOnlyRegs := by
  apply List.mem_of_getElem? (i := a.toNat - 0x09)
  rw [readOnlyRegs, List.getElem?_drop, Nat.add_sub_cancel' ha]
  exact h

/-! ## RD and WR by index -/

theorem exec_rd (a : Byte) (s : State) : exec (.rd a) s = .next ((regRead a s).2.respond (regRead a s).1) := rfl

theorem exec_rd_mapped {a : Byte} {r : Reg} (h : regOfIndex a = some r) (s : State) :
    exec (.rd a) s = .next (s.respond (readReg r s)) := by
  rw [exec_rd, regRead, h]

theorem exec_rd_unmapped {a : Byte} (h : regOfIndex a = none) (s : State) :
    exec (.rd a) s = .next ((s.flag .cmd).respond 0) := by
  rw [exec_rd, regRead, h]

theorem exec_wr_unmapped {a : Byte} (h : regOfIndex a = none) (v : U32) (s : State) :
    exec (.wr a v) s = .next (s.flag .cmd) := by
  rw [exec_wr, regWrite, h]

theorem writeReg_of_readOnly {r : Reg} (h : r ∈ readOnlyRegs) (v : U32) (s : State) : writeReg r v s = s := by
  cases r with
  | ctrl | status | coeff | tfloor | react | hold | sf10 | nbmin | gain => exact absurd h (by decide)
  | _ => rfl

theorem exec_wr_of_readOnly {a : Byte} (hlo : 0x09 ≤ a.toNat) (hhi : a.toNat ≤ 0x24) (v : U32) (s : State) :
    exec (.wr a v) s = .next s := by
  cases h : regOfIndex a with
  | none =>
    have hunmapped : 0x25 ≤ a.toNat := regOfIndex_eq_none_iff.1 h
    omega
  | some r => rw [exec_wr_mapped h, writeReg_of_readOnly (mem_readOnlyRegs_of_regOfIndex h hlo)]

/-! ## Reserved bits of CTRL and STATUS (10_state.md R22, R23) -/

theorem getLsbD_and_mask {w k : Nat} {m : BitVec w} (h : m.getLsbD k = true) (v : BitVec w) :
    (v &&& m).getLsbD k = v.getLsbD k := by
  rw [BitVec.getLsbD_and, h, Bool.and_true]

/-- A CTRL write looks at bits 2:0 only. -/
theorem State.writeCtrl_and_mask (s : State) (v : U32) : s.writeCtrl (v &&& 0x7) = s.writeCtrl v := by
  simp only [State.writeCtrl, getLsbD_and_mask (m := (0x7 : U32)) (k := 0) rfl,
    getLsbD_and_mask (m := (0x7 : U32)) (k := 1) rfl, getLsbD_and_mask (m := (0x7 : U32)) (k := 2) rfl]

/-- A STATUS write looks at bits 6:3 only. -/
theorem State.clearSticky_and_mask (s : State) (v : U32) : s.clearSticky (v &&& 0x78) = s.clearSticky v := by
  simp only [State.clearSticky, getLsbD_and_mask (m := (0x78 : U32)) (k := 3) rfl,
    getLsbD_and_mask (m := (0x78 : U32)) (k := 4) rfl, getLsbD_and_mask (m := (0x78 : U32)) (k := 5) rfl,
    getLsbD_and_mask (m := (0x78 : U32)) (k := 6) rfl]

/-- A zero-extended image of `k` bits misses every mask that is clear below bit `k`. -/
theorem setWidth_and_eq_zero {k n : Nat} (x : BitVec k) {m : BitVec n} (h : ∀ i < k, m.getLsbD i = false) :
    x.setWidth n &&& m = 0 := by
  refine BitVec.eq_of_getLsbD_eq fun i hi => ?_
  rw [BitVec.getLsbD_and, BitVec.ofNat_eq_ofNat, BitVec.getLsbD_zero]
  by_cases hk : i < k
  · rw [h i hk, Bool.and_false]
  · rw [BitVec.getLsbD_setWidth, BitVec.getLsbD_of_ge x i (Nat.le_of_not_lt hk), Bool.and_false, Bool.false_and]

theorem ctrlImage_reserved (s : State) : ctrlImage s &&& 0xFFFFFFF8 = 0 := setWidth_and_eq_zero _ (by decide)

theorem statusImage_reserved (s : State) : statusImage s &&& 0xFFFFF000 = 0 := setWidth_and_eq_zero _ (by decide)

/-! ## The obligation -/

/-- Settles O33: the index is unmapped, read-only, or that of CTRL or STATUS. -/
theorem unmappedAndReadOnlyAccesses : Obligations.UnmappedAndReadOnlyAccesses := by
  refine ⟨fun a v s ha => ?unmapped, fun a v s hlo hhi => exec_wr_of_readOnly hlo hhi v s,
    fun v s => ⟨?ctrlWrite, ?statusWrite⟩, fun s => ⟨ctrlImage s, statusImage s, ctrlImage_reserved s,
      statusImage_reserved s, exec_rd_mapped (r := .ctrl) rfl s, exec_rd_mapped (r := .status) rfl s⟩⟩
  case unmapped =>
    have hnone : regOfIndex a = none := regOfIndex_eq_none_iff.2 ha
    exact ⟨exec_rd_unmapped hnone s, exec_wr_unmapped hnone v s⟩
  case ctrlWrite =>
    have hwr : ∀ w, exec (.wr 0x00 w) s = .next (s.writeCtrl w) := fun w => exec_wr_mapped (r := .ctrl) rfl w s
    rw [hwr, hwr, State.writeCtrl_and_mask]
  case statusWrite =>
    have hwr : ∀ w, exec (.wr 0x01 w) s = .next (s.clearSticky w) := fun w => exec_wr_mapped (r := .status) rfl w s
    rw [hwr, hwr, State.clearSticky_and_mask]

end Sys2Proof.Machine
end

section
/-! PROOFS. The encoding (30_encoding.md R74 to R77): a word decodes to a command exactly if the command's word is the word
masked to the bits that count, and every word decodes to the command its OP selects or to nothing. -/
namespace Sys2Proof

open Machine

/-! ## Masking a word field by field -/

/-- The mask of a command's used bits: all of OP, and what it uses of ADDR and DATA. -/
theorem usedBits_eq_commandWord (i : Instr) : ∃ addrMask dataMask, usedBits i = commandWord 0xFF addrMask dataMask := by
  cases i with
  | nop => exact ⟨0, 0, rfl⟩
  | sample x => exact ⟨0, 0xFFFF, rfl⟩
  | blkend now => exact ⟨0, 0xFFFFFFFF, rfl⟩
  | wr a v => exact ⟨0xFF, 0xFFFFFFFF, rfl⟩
  | rd a => exact ⟨0xFF, 0, rfl⟩
  | treset now => exact ⟨0, 0xFFFFFFFF, rfl⟩

theorem and_commandWord (w : CommandWord) (op a : Byte) (d : U32) :
    w &&& commandWord op a d = commandWord (opField w &&& op) (addrField w &&& a) (dataField w &&& d) := by
  conv_lhs => rw [← commandWord_fields w]
  exact BitVec.and_append.trans (congrArg (· ++ (dataField w &&& d)) BitVec.and_append)

theorem and_commandWord_opMask (w : CommandWord) (a : Byte) (d : U32) :
    w &&& commandWord 0xFF a d = commandWord (opField w) (addrField w &&& a) (dataField w &&& d) := by
  rw [and_commandWord, show (0xFF : Byte) = BitVec.allOnes 8 from rfl, BitVec.and_allOnes]

theorem opField_and_usedBits (w : CommandWord) (i : Instr) : opField (w &&& usedBits i) = opField w := by
  obtain ⟨addrMask, dataMask, hmask⟩ := usedBits_eq_commandWord i
  rw [hmask, and_commandWord_opMask, opField_commandWord]

theorem commandWord_eq_and {w : CommandWord} {op a : Byte} {d : U32} (addrMask : Byte) (dataMask : U32)
    (hop : opField w = op) (haddr : addrField w &&& addrMask = a) (hdata : dataField w &&& dataMask = d) :
    commandWord op a d = w &&& commandWord 0xFF addrMask dataMask := by
  rw [and_commandWord_opMask, hop, haddr, hdata]

/-- An assembled SAMPLE keeps DATA[15:0] and clears DATA[31:16] (30_encoding.md R79). -/
theorem sampleData_sampleField (d : U32) : sampleData (sampleField d) = d &&& 0xFFFF := by
  apply BitVec.eq_of_toNat_eq
  have hlow : d.toNat &&& 0xFFFF = d.toNat % 2 ^ 16 := Nat.and_two_pow_sub_one_eq_mod d.toNat 16
  exact (BitVec.toNat_append _ _).trans (by simp [sampleField, hlow])

/-! ## The command of an opcode with the operands of a word -/

/-- The command of `i`'s opcode whose operands are the fields of `w` (30_encoding.md R72 to R74). -/
def withOperandsOf (w : CommandWord) : Instr → Instr
  | .nop => .nop
  | .sample _ => .sample (sampleField (dataField w))
  | .blkend _ => .blkend (dataField w)
  | .wr _ _ => .wr (addrField w) (dataField w)
  | .rd _ => .rd (addrField w)
  | .treset _ => .treset (dataField w)

theorem decode_of_opField {w : CommandWord} {i : Instr} (h : opField w = opcode i) :
    decode w = .ok (withOperandsOf w i) := by
  unfold decode
  rw [h]
  cases i <;> rfl

theorem encode_withOperandsOf {w : CommandWord} {i : Instr} (h : opField w = opcode i) :
    encode (withOperandsOf w i) = w &&& usedBits i := by
  cases i with
  | nop => exact commandWord_eq_and 0 0 h BitVec.and_zero BitVec.and_zero
  | sample x => exact commandWord_eq_and 0 0xFFFF h BitVec.and_zero (sampleData_sampleField _).symm
  | blkend now => exact commandWord_eq_and 0 0xFFFFFFFF h BitVec.and_zero BitVec.and_allOnes
  | wr a v => exact commandWord_eq_and 0xFF 0xFFFFFFFF h BitVec.and_allOnes BitVec.and_allOnes
  | rd a => exact commandWord_eq_and 0xFF 0 h BitVec.and_allOnes BitVec.and_zero
  | treset now => exact commandWord_eq_and 0 0xFFFFFFFF h BitVec.and_zero BitVec.and_allOnes

theorem opField_encode (i : Instr) : opField (encode i) = opcode i := by
  cases i with
  | nop => exact Laws.OpcodeSelects.nop
  | sample x => exact Laws.OpcodeSelects.sample x
  | blkend now => exact Laws.OpcodeSelects.blkend now
  | wr a v => exact Laws.OpcodeSelects.wr a v
  | rd a => exact Laws.OpcodeSelects.rd a
  | treset now => exact Laws.OpcodeSelects.treset now

theorem withOperandsOf_encode (i : Instr) : withOperandsOf (encode i) i = i := by
  cases i <;> simp [withOperandsOf, encode]

theorem decode_encode (i : Instr) : decode (encode i) = .ok i := by
  rw [decode_of_opField (opField_encode i), withOperandsOf_encode]

theorem encode_injective : Function.Injective encode := fun i j h =>
  Except.ok.inj (by rw [← decode_encode i, h, decode_encode j])

/-! ## What a word decodes to -/

/-- Every word decodes to a command of its OP, or is illegal. -/
theorem decode_legal_or_illegal (w : CommandWord) :
    (∃ i, decode w = .ok i ∧ opcode i = opField w) ∨
    (6 ≤ (opField w).toNat ∧ decode w = .error (.illegalOpcode (opField w))) := by
  rcases decode_cases w with ⟨hop, hdec⟩ | ⟨hop, hdec⟩ | ⟨hop, hdec⟩ | ⟨hop, hdec⟩ | ⟨hop, hdec⟩ | ⟨hop, hdec⟩ | hill
  case inr.inr.inr.inr.inr.inr => exact .inr hill
  all_goals exact .inl ⟨_, hdec, BitVec.eq_of_toNat_eq hop.symm⟩

theorem opField_of_decode {w : CommandWord} {i : Instr} (h : decode w = .ok i) : opField w = opcode i := by
  obtain ⟨j, hj, hop⟩ | ⟨-, hill⟩ := decode_legal_or_illegal w
  · rw [← hop, Except.ok.inj (hj.symm.trans h)]
  · rw [hill] at h
    nomatch h

theorem opcode_le_five (i : Instr) : (opcode i).toNat ≤ 5 := by
  cases i <;> simp [opcode]

/-- The bits a command uses, and no others, say whether a word is that command (30_encoding.md R76). -/
theorem decode_eq_ok_iff {w : CommandWord} {i : Instr} : decode w = .ok i ↔ encode i = w &&& usedBits i := by
  constructor
  case mp =>
    intro h
    have hop : opField w = opcode i := opField_of_decode h
    have hoperands : withOperandsOf w i = i := Except.ok.inj ((decode_of_opField hop).symm.trans h)
    rw [← encode_withOperandsOf hop, hoperands]
  case mpr =>
    intro h
    have hop : opField w = opcode i := by rw [← opField_and_usedBits w i, ← h, opField_encode]
    have hoperands : withOperandsOf w i = i := encode_injective (by rw [encode_withOperandsOf hop, h])
    rw [decode_of_opField hop, hoperands]

/-! ## The obligations -/

/-- Settles O2: `decode_eq_ok_iff` left to right for `w`, right to left for `w'`; the masks are `usedBits` written out. -/
theorem ignoredFieldsSelectNothing : Obligations.IgnoredFieldsSelectNothing := by
  refine ⟨fun w w' i h => ?_, rfl, fun _ => rfl, fun _ => rfl, fun _ _ => rfl, fun _ => rfl, fun _ => rfl⟩
  have henc : encode i = w &&& usedBits i := decode_eq_ok_iff.1 h
  exact ⟨henc, fun hagree => decode_eq_ok_iff.2 (henc.trans hagree.symm)⟩

/-- Settles O3: the command a word decodes to has the word's OP, and no opcode is above 5. -/
theorem everyWordLegalOrIllegal : Obligations.EveryWordLegalOrIllegal := by
  intro w
  obtain ⟨i, hdec, hop⟩ | hill := decode_legal_or_illegal w
  · exact .inl ⟨hop ▸ opcode_le_five i, i, hdec, hop⟩
  · exact .inr hill

end Sys2Proof
end

section
/-! PROOFS. The commands NOP, TRESET and RD (40_commands.md R91, R95, R96): the images made of fields as sums over their
bits (10_state.md R22, R23, R37), then what each command does and which words are that command. -/
namespace Sys2Proof.Machine

/-! ## Images as sums of bits -/

/-- What a flag at bit `k` adds to an image. -/
def bitAt (b : Bool) (k : Nat) : Nat := if b then 2 ^ k else 0

theorem bitAt_eq_toNat_mul (b : Bool) (k : Nat) : bitAt b k = b.toNat * 2 ^ k := by
  cases b <;> simp [bitAt]

/-- A pattern before another one counts in units of the second one's range. -/
theorem toNat_append_add {m n : Nat} (x : BitVec m) (y : BitVec n) :
    (x ++ y).toNat = x.toNat * 2 ^ n + y.toNat := by
  rw [BitVec.toNat_append, ← Nat.shiftLeft_add_eq_or_of_lt y.isLt, Nat.shiftLeft_eq]

theorem ctrlImage_eq_sum (s : State) :
    ctrlImage s = BitVec.ofNat 32 (bitAt s.scan 0 + bitAt s.autotune 1 + bitAt s.diag 2) := by
  rw [ctrlImage, ← BitVec.ofNat_toNat]
  simp only [BitVec.append_ofBool, BitVec.toNat_concat, BitVec.toNat_ofBool, bitAt_eq_toNat_mul]
  congr 1
  omega

theorem toneBit_eq_decide (t : Tone) : toneBit t = decide (t = .present) := by
  cases t <;> rfl

theorem statusImage_eq_sum (s : State) :
    statusImage s = BitVec.ofNat 32 (bitAt (decide (s.raw = .present)) 0 + bitAt (decide (s.filt = .present)) 1 +
      bitAt (decide (s.lcnt = s.cfg.laN)) 2 + bitAt s.errCmd 3 + bitAt s.errHaz 4 + bitAt s.errNum 5 +
      bitAt s.nbsChg 6 + bitAt s.stallDone 7 + bitAt s.lastSpace 8 + bitAt s.loudSeen 9 +
      bitAt (decide (s.prevRaw = .present)) 10 + bitAt (decide (s.prevFilt = .present)) 11) := by
  rw [statusImage, ← BitVec.ofNat_toNat]
  simp only [BitVec.append_ofBool, BitVec.toNat_concat, BitVec.toNat_ofBool, bitAt_eq_toNat_mul, toneBit_eq_decide,
    settled]
  congr 1
  omega

/-! ## The image of CODE -/

theorem symBits_cons (x : Symbol) (xs : List Symbol) :
    symBits (x :: xs) = Nat.bit (decide (x = .dash)) (symBits xs) := by
  rw [symBits, Nat.bit_val, Nat.add_comm]
  cases x <;> rfl

/-- Bit `k` of SYM says whether symbol `k` is a dash; the bits at or above LEN are 0 (10_state.md R37). -/
theorem testBit_symBits (xs : List Symbol) (k : Nat) :
    (symBits xs).testBit k = decide (xs[k]? = some .dash) := by
  induction xs generalizing k with
  | nil => simp [symBits]
  | cons x xs ih =>
    rw [symBits_cons]
    cases k with
    | zero => simp
    | succ k => rw [Nat.testBit_bit_succ, ih, List.getElem?_cons_succ]

theorem symBits_lt_two_pow_length (xs : List Symbol) : symBits xs < 2 ^ xs.length := by
  refine Nat.lt_pow_two_of_testBit _ fun k hk => ?_
  rw [testBit_symBits, List.getElem?_eq_none hk]
  rfl

/-- While LEN is at most 7, neither LEN nor SYM is cut by the width of its field (10_state.md R42). -/
theorem codeImage_eq_of_length_le {s : State} (h : s.code.length ≤ 7) :
    codeImage s = BitVec.ofNat 32 (s.code.length + 256 * symBits s.code) := by
  have hsym : symBits s.code < 2 ^ 7 :=
    (symBits_lt_two_pow_length s.code).trans_le (Nat.pow_le_pow_right Nat.two_pos h)
  rw [codeImage, ← BitVec.ofNat_toNat]
  simp only [toNat_append_add, BitVec.toNat_ofNat]
  congr 1
  omega

/-! ## RD by index -/

theorem regOfIndex_dur : ∀ k : Fin 11, regOfIndex (BitVec.ofNat 8 (0x1A + k)) = some (.dur k) := by decide

theorem exec_rd_dur {k : Nat} (hk : k < 11) (s : State) :
    exec (.rd (BitVec.ofNat 8 (0x1A + k))) s = .next (s.respond (durImage s k)) :=
  exec_rd_mapped (regOfIndex_dur ⟨k, hk⟩) s

/-! ## The obligations -/

/-- Settles O23: NOP's arm is the identity, and OP alone selects it. -/
theorem nopLeavesEverything : Obligations.NopLeavesEverything :=
  ⟨fun _ => rfl, fun _ hop => decode_of_opField (i := .nop) hop⟩

/-- Settles O25: TRESET's arm is `timingReset`; of its word only OP and DATA are looked at. -/
theorem tresetResetsTimingRecord : Obligations.TresetResetsTimingRecord :=
  ⟨fun _ _ => rfl, fun _ hop => decode_of_opField (i := .treset 0) hop⟩

/-- Settles O26: a mapped index responds its register's image; the images of CTRL, STATUS and CODE are read bit by bit,
every other one is the field itself. -/
theorem rdRespondsRegisterImage : Obligations.RdRespondsRegisterImage := by
  intro s responds bit
  have hrd {a : Byte} (r : Reg) (h : regOfIndex a = some r) : responds a (readReg r s) := exec_rd_mapped h s
  refine ⟨?ctrl, ?status, hrd .coeff rfl, hrd .tfloor rfl, hrd .react rfl, hrd .hold rfl, hrd .sf10 rfl,
    hrd .nbmin rfl, hrd .gain rfl, hrd .mag rfl, hrd .thr rfl, hrd .loud rfl, hrd .lcnt rfl, hrd .q1 rfl,
    hrd .q2 rfl, hrd .scnt rfl, hrd .unit rfl, hrd .wpm rfl, hrd .nbs rfl, hrd .highdur rfl, hrd .lowdur rfl,
    hrd .highstart rfl, hrd .lowstart rfl, hrd .lastrawt rfl, hrd .lastloudt rfl, fun hlen => ?code,
    fun k hk => exec_rd_dur hk s, fun a ha => exec_rd_unmapped (regOfIndex_eq_none_iff.2 ha) s,
    fun w hop => decode_of_opField (i := .rd 0) hop⟩
  case ctrl => exact ctrlImage_eq_sum s ▸ hrd .ctrl rfl
  case status => exact statusImage_eq_sum s ▸ hrd .status rfl
  case code => exact ⟨symBits s.code, codeImage_eq_of_length_le hlen ▸ hrd .code rfl, testBit_symBits s.code⟩

end Sys2Proof.Machine
end

section
/-! PROOFS. The filter (41_goertzel.md R110, R112): a number whose significand fits 24 bits is not changed by rounding, so
a sample is exact as a binary32; what the end of a block makes of each class of the squared magnitude; and that the later
stages of the pass leave the filter's outcome as it is. -/
namespace Sys2Proof.Machine

/-! ## The class and the value of a packed pattern -/

theorem isFinite_fpack {neg : Bool} {m : Nat} (h : m < infMag) : isFinite (fpack neg m) = true := by
  have hsign : m < signBit := h.trans (by decide)
  rw [isFinite, fmag_fpack hsign, decide_eq_true h]

theorem fval_fpack {neg : Bool} {m : Nat} (h : m < signBit) :
    fval (fpack neg m) = if neg then -(units m : Int) else units m := by
  rw [fval, msb_fpack h, fmag_fpack h]

/-! ## Rounding leaves a 24-bit significand as it is -/

theorem excessBits_mul_two_pow {m : Nat} (hlo : 2 ^ 23 ≤ m) (hhi : m < 2 ^ 24) (j : Nat) :
    excessBits (m * 2 ^ j) = j := by
  have hpos : 0 < 2 ^ j := Nat.two_pow_pos j
  have hlog : Nat.log2 (m * 2 ^ j) = 23 + j := by
    rw [Nat.log2_eq_iff (by positivity), pow_add, Nat.add_right_comm, pow_add]
    exact ⟨Nat.mul_le_mul_right _ hlo, Nat.mul_lt_mul_of_pos_right hhi hpos⟩
  rw [excessBits, hlog]
  cases j with
  | zero => exact if_pos (by omega)
  | succ j =>
    have hbig : 2 ^ 23 * 2 ≤ m * 2 ^ (j + 1) := Nat.mul_le_mul hlo (Nat.le_self_pow j.succ_ne_zero 2)
    rw [if_neg (by omega), Nat.add_sub_cancel_left]

theorem divNearestEven_mul_self (q : Nat) {den : Nat} (h : 0 < den) : divNearestEven (q * den) den = q := by
  simp [divNearestEven, Nat.mul_div_cancel q h, h.ne]

/-- The magnitude field of a normal number carries its significand's leading bit into the exponent. -/
theorem roundMag_mul_two_pow {m j : Nat} (hlo : 2 ^ 23 ≤ m) (hhi : m < 2 ^ 24) (hj : j ≤ 253) :
    roundMag (m * 2 ^ j) 1 = j * 2 ^ 23 + m := by
  simp only [roundMag, Nat.div_one, Nat.one_mul, excessBits_mul_two_pow hlo hhi,
    divNearestEven_mul_self m (Nat.two_pow_pos j)]
  exact Nat.min_eq_left (by unfold infMag; omega)

theorem units_mul_two_pow {m : Nat} (hlo : 2 ^ 23 ≤ m) (hhi : m < 2 ^ 24) (j : Nat) :
    units (j * 2 ^ 23 + m) = m * 2 ^ j := by
  have hfields : j * 2 ^ 23 + m = (j + 1) * 2 ^ 23 + (m - 2 ^ 23) := by omega
  rw [hfields, units_fields (j + 1) (by omega), if_neg j.succ_ne_zero, Nat.add_sub_cancel' hlo, Nat.add_sub_cancel]

/-! ## Integers as binary32 (00_scope.md R11) -/

/-- A positive integer up to 2^24 has a 24-bit significand. -/
theorem exists_significand {n : Nat} (hpos : n ≠ 0) (hle : n ≤ 2 ^ 24) :
    ∃ m l, 2 ^ 23 ≤ m ∧ m < 2 ^ 24 ∧ l ≤ 24 ∧ n * 2 ^ 23 = m * 2 ^ l := by
  rcases hle.lt_or_eq with hlt | rfl
  · obtain ⟨hlo, hhi⟩ := (Nat.log2_eq_iff hpos).1 rfl
    generalize Nat.log2 n = l at hlo hhi
    have hl : l < 24 := (Nat.pow_lt_pow_iff_right Nat.one_lt_two).1 (hlo.trans_lt hlt)
    have hsum : 2 ^ l * 2 ^ (23 - l) = 2 ^ 23 := by rw [← pow_add, Nat.add_sub_cancel' (Nat.le_of_lt_succ hl)]
    refine ⟨n * 2 ^ (23 - l), l, ?_, ?_, hl.le, ?_⟩
    · rw [← hsum]; exact Nat.mul_le_mul_right _ hlo
    · calc n * 2 ^ (23 - l) < 2 ^ (l + 1) * 2 ^ (23 - l) := Nat.mul_lt_mul_of_pos_right hhi (Nat.two_pow_pos _)
        _ = 2 ^ 24 := by rw [← pow_add]; congr 1; omega
    · rw [Nat.mul_assoc, Nat.mul_comm (2 ^ (23 - l)), hsum]
  · exact ⟨2 ^ 23, 24, le_rfl, by decide, le_rfl, Nat.mul_comm _ _⟩

/-- Up to 2^24 an integer's binary32 is finite and has its value. -/
theorem roundMag_integer_exact {n : Nat} (h : n ≤ 2 ^ 24) :
    roundMag (n * 2 ^ 149) 1 < infMag ∧ units (roundMag (n * 2 ^ 149) 1) = n * 2 ^ 149 := by
  by_cases hz : n = 0
  · subst hz
    decide
  · obtain ⟨m, l, hlo, hhi, hl, hm⟩ := exists_significand hz h
    have hvalue : n * 2 ^ 149 = m * 2 ^ (l + 126) := by
      rw [pow_add 2 l, ← Nat.mul_assoc, ← hm, Nat.mul_assoc, ← pow_add]
    rw [hvalue, roundMag_mul_two_pow hlo hhi (by omega), units_mul_two_pow hlo hhi]
    exact ⟨by unfold infMag; omega, rfl⟩

theorem isFinite_fofInt {n : Int} (h : n.natAbs ≤ 2 ^ 24) : isFinite (fofInt n) = true :=
  isFinite_fpack (roundMag_integer_exact h).1

theorem fval_fofInt {n : Int} (h : n.natAbs ≤ 2 ^ 24) : fval (fofInt n) = n * 2 ^ 149 := by
  obtain ⟨-, hunits⟩ := roundMag_integer_exact h
  rw [fofInt, fval_fpack (roundMag_lt_sign _ _), hunits]
  by_cases hneg : n < 0
  · rw [if_pos (decide_eq_true hneg)]; omega
  · rw [if_neg (by simpa using hneg)]; omega

/-! ## Samples (41_goertzel.md R110) -/

/-- A sample's 16 bits, seen through DATA, are the word's low 16 bits. -/
theorem sampleField_dataField (w : CommandWord) : sampleField (dataField w) = w.extractLsb' 0 16 := by
  apply BitVec.eq_of_toNat_eq
  simp only [sampleField, dataField, BitVec.extractLsb'_toNat, Nat.shiftRight_zero]
  exact Nat.mod_mod_of_dvd _ (by decide)

theorem natAbs_sample_le (x : I16) : x.toInt.natAbs ≤ 2 ^ 15 := by
  have hlo := BitVec.le_toInt x
  have hhi := BitVec.toInt_lt (x := x)
  omega

/-! ## The end of a block -/

theorem magOf_of_isNaN {m2 : F32} (h : isNaN m2 = true) : magOf m2 = 0 := if_pos h

theorem magOf_of_isFinite {m2 : F32} (h : isFinite m2 = true) :
    magOf m2 = if fle m2 0 then 0 else fsqrt m2 := by
  have hpos : m2 ≠ posInf := by rintro rfl; exact absurd h (by decide)
  have hneg : m2 ≠ negInf := by rintro rfl; exact absurd h (by decide)
  rw [magOf, isNaN_of_isFinite h, if_neg Bool.false_ne_true, if_neg hpos, if_neg hneg]
  rfl

theorem goertzelFinish_of_isFinite {s : State} (h : isFinite (magSquared s.q1 s.q2 s.coeff) = true) :
    goertzelFinish s = { s with mag := magOf (magSquared s.q1 s.q2 s.coeff), q1 := 0, q2 := 0, scnt := 0 } := by
  simp only [goertzelFinish, h, if_true]
  rfl

theorem goertzelFinish_of_not_isFinite {s : State} (h : isFinite (magSquared s.q1 s.q2 s.coeff) = false) :
    goertzelFinish s = { s with mag := magOf (magSquared s.q1 s.q2 s.coeff), q1 := 0, q2 := 0, scnt := 0,
                                errNum := true, faultMark := true } := by
  simp only [goertzelFinish, h, Bool.false_eq_true, if_false]
  rfl

/-! ## The stages after the filter -/

theorem exec_blkend (now : U32) (s : State) : exec (.blkend now) s = .next (pipelinePass now s) := rfl

/-- The front end after the filter writes the threshold, the comparator and the debouncer, nothing else. -/
theorem frontEnd_after_filter (now : U32) (s : State) : ∃ t r l f, frontEnd now s =
    { goertzelFinish s with thr := t, raw := r, lastrawt := l, prevRaw := r, filt := f } := by
  obtain ⟨l, f, h⟩ := debounce_frame now (compareThreshold (thresholdUpdate (goertzelFinish s)))
  exact ⟨_, _, l, f, h⟩

/-- What the filter writes at the end of a block is what the whole pass leaves there. -/
theorem pipelinePass_keeps_filter (now : U32) (s : State) :
    (pipelinePass now s).mag = (goertzelFinish s).mag ∧ (pipelinePass now s).errNum = (goertzelFinish s).errNum ∧
    (pipelinePass now s).faultMark = (goertzelFinish s).faultMark ∧ (pipelinePass now s).q1 = (goertzelFinish s).q1 ∧
    (pipelinePass now s).q2 = (goertzelFinish s).q2 ∧ (pipelinePass now s).scnt = (goertzelFinish s).scnt := by
  obtain ⟨_, _, _, _, hfront⟩ := frontEnd_after_filter now s
  obtain ⟨_, _, _, _, _, _, _, _, _, _, _, _, _, hclass⟩ := classifyUnlessScanning_frame now (frontEnd now s)
  obtain ⟨_, _, _, _, _, _, hgain⟩ := gainLoop_frame now (classifyUnlessScanning now (frontEnd now s))
  rw [pipelinePass, hgain, hclass, hfront]
  exact ⟨rfl, rfl, rfl, rfl, rfl, rfl⟩

/-- MAG and the clear of the accumulators, in every case (41_goertzel.md R112). -/
theorem pipelinePass_filter (now : U32) (s : State) :
    (pipelinePass now s).mag = magOf (magSquared s.q1 s.q2 s.coeff) ∧ (pipelinePass now s).q1 = 0 ∧
    (pipelinePass now s).q2 = 0 ∧ (pipelinePass now s).scnt = 0 := by
  obtain ⟨hmag, -, -, hq1, hq2, hscnt⟩ := pipelinePass_keeps_filter now s
  obtain ⟨_, _, hfin⟩ := goertzelFinish_frame s
  rw [hmag, hq1, hq2, hscnt, hfin]
  exact ⟨rfl, rfl, rfl, rfl⟩

/-- A finite squared magnitude is no error. -/
theorem pipelinePass_errNum_of_isFinite (now : U32) {s : State}
    (h : isFinite (magSquared s.q1 s.q2 s.coeff) = true) :
    (pipelinePass now s).errNum = s.errNum ∧ (pipelinePass now s).faultMark = s.faultMark := by
  obtain ⟨-, herr, hmark, -⟩ := pipelinePass_keeps_filter now s
  rw [herr, hmark, goertzelFinish_of_isFinite h]
  exact ⟨rfl, rfl⟩

/-- Any other one sets ERR_NUM (60_exceptions.md R203). -/
theorem pipelinePass_errNum_of_not_isFinite (now : U32) {s : State}
    (h : isFinite (magSquared s.q1 s.q2 s.coeff) = false) :
    (pipelinePass now s).errNum = true ∧ (pipelinePass now s).faultMark = true := by
  obtain ⟨-, herr, hmark, -⟩ := pipelinePass_keeps_filter now s
  rw [herr, hmark, goertzelFinish_of_not_isFinite h]
  exact ⟨rfl, rfl⟩

/-! ## The obligations -/

/-- Settles O24: SAMPLE's arm is `goertzelStep`; a sample's magnitude is at most 2^15, so its binary32 is exact. -/
theorem sampleRunsFilterStep : Obligations.SampleRunsFilterStep := by
  intro x s
  have hx : x.toInt.natAbs ≤ 2 ^ 24 := (natAbs_sample_le x).trans (by decide)
  refine ⟨rfl, isFinite_fofInt hx, fval_fofInt hx, fun w hop => ?decodes⟩
  case decodes =>
    rw [decode_of_opField (i := .sample 0) hop, withOperandsOf, sampleField_dataField]

/-- Settles O35: ERR_NUM and the mark by whether the squared magnitude is finite, MAG by the branches of `magOf`. -/
theorem blkendComputesMagnitude : Obligations.BlkendComputesMagnitude := by
  intro now s
  refine ⟨_, exec_blkend now s, ?_⟩
  intro m2
  obtain ⟨hmag, hrest⟩ := pipelinePass_filter now s
  replace hmag : (pipelinePass now s).mag = magOf m2 := hmag
  have herr (h : isFinite m2 = false) := pipelinePass_errNum_of_not_isFinite now (s := s) h
  have hok (h : isFinite m2 = true) := pipelinePass_errNum_of_isFinite now (s := s) h
  rw [hmag]
  refine ⟨fun hn => ⟨magOf_of_isNaN hn, herr ?nan⟩, fun hi => ⟨?magInf, herr ?inf⟩,
    fun hi => ⟨?magNegInf, herr ?negInf⟩, hok, fun hf hle => ?nonpos, fun hf hlt => ?pos, hrest⟩
  case nan => exact Bool.eq_false_iff.2 fun hf => Bool.false_ne_true ((isNaN_of_isFinite hf).symm.trans hn)
  case magInf | inf | magNegInf | negInf => rw [hi]; decide
  case nonpos => rw [magOf_of_isFinite hf, if_pos hle]
  case pos =>
    have hle : fle m2 0 ≠ true := fun hle => Bool.false_ne_true ((flt_eq_false_of_fle hle).symm.trans hlt)
    rw [magOf_of_isFinite hf, if_neg hle]

end Sys2Proof.Machine
end

section
/-! PROOFS. The adaptive threshold, the comparator and the debouncer (42_threshold_debounce.md R120, R121, R123, R124): what
each stage writes, once; that the classifier and the gain loop leave it as it is; and so what the whole pass leaves. -/
namespace Sys2Proof.Machine

/-! ## Threshold and comparator -/

theorem thresholdUpdate_thr (s : State) : (thresholdUpdate s).thr = raisedThreshold (thresholdAverage s) s.tfloor := rfl

theorem toneOf_eq_present_iff {b : Bool} : toneOf b = .present ↔ b = true := by cases b <;> decide

/-! ## Debouncer -/

theorem rawTransition_of_ne {s : State} (h : s.raw ≠ s.prevRaw) (now : U32) :
    rawTransition now s = { s with lastrawt := now, prevRaw := s.raw } := if_pos h

theorem rawTransition_of_eq {s : State} (h : s.raw = s.prevRaw) (now : U32) : rawTransition now s = s :=
  if_neg (not_not.2 h)

theorem commitFilter_of_held {now : U32} {s : State} (h : s.raw ≠ s.filt ∧ s.hold.toNat ≤ elapsed now s.lastrawt) :
    commitFilter now s = { s with filt := s.raw } := if_pos h

theorem commitFilter_of_not_held {now : U32} {s : State}
    (h : ¬(s.raw ≠ s.filt ∧ s.hold.toNat ≤ elapsed now s.lastrawt)) : commitFilter now s = s := if_neg h

/-- The commit leaves the stamp, so the debouncer's stamp is that of the raw transition. -/
theorem debounce_lastrawt (now : U32) (s : State) : (debounce now s).lastrawt = (rawTransition now s).lastrawt := by
  obtain ⟨_, h⟩ := commitFilter_frame now (rawTransition now s)
  rw [debounce, h]

theorem debounce_lastrawt_of_ne {s : State} (h : s.raw ≠ s.prevRaw) (now : U32) : (debounce now s).lastrawt = now := by
  rw [debounce_lastrawt, rawTransition_of_ne h]

theorem debounce_lastrawt_of_eq {s : State} (h : s.raw = s.prevRaw) (now : U32) :
    (debounce now s).lastrawt = s.lastrawt := by
  rw [debounce_lastrawt, rawTransition_of_eq h]

/-- The hold time is measured from the stamp the same pass leaves (42_threshold_debounce.md R123 before R124). -/
theorem debounce_filt_of_held {now : U32} {s : State}
    (h : s.raw ≠ s.filt ∧ s.hold.toNat ≤ elapsed now (debounce now s).lastrawt) : (debounce now s).filt = s.raw := by
  obtain ⟨_, hraw⟩ := rawTransition_frame now s
  rw [debounce_lastrawt, hraw] at h
  rw [debounce, hraw, commitFilter_of_held h]

theorem debounce_filt_of_not_held {now : U32} {s : State}
    (h : ¬(s.raw ≠ s.filt ∧ s.hold.toNat ≤ elapsed now (debounce now s).lastrawt)) : (debounce now s).filt = s.filt := by
  obtain ⟨_, hraw⟩ := rawTransition_frame now s
  rw [debounce_lastrawt, hraw] at h
  rw [debounce, hraw, commitFilter_of_not_held h]

/-! ## In the pass -/

/-- The state the debouncer works on in the pass. -/
def compared (s : State) : State := compareThreshold (thresholdUpdate (goertzelFinish s))

theorem frontEnd_eq_debounce (now : U32) (s : State) : frontEnd now s = debounce now (compared s) := rfl

/-- Before the debouncer the pass leaves the debouncer's own registers as they were. -/
theorem compared_keeps_debouncer (s : State) :
    (compared s).prevRaw = s.prevRaw ∧ (compared s).lastrawt = s.lastrawt ∧ (compared s).filt = s.filt ∧
    (compared s).hold = s.hold := by
  obtain ⟨_, _, h⟩ := goertzelFinish_frame s
  rw [compared, h]
  exact ⟨rfl, rfl, rfl, rfl⟩

/-- What the comparator and the debouncer leave is what the whole pass leaves. -/
theorem pipelinePass_keeps_frontEnd (now : U32) (s : State) :
    (pipelinePass now s).thr = (frontEnd now s).thr ∧ (pipelinePass now s).raw = (frontEnd now s).raw ∧
    (pipelinePass now s).lastrawt = (frontEnd now s).lastrawt ∧
    (pipelinePass now s).prevRaw = (frontEnd now s).prevRaw ∧ (pipelinePass now s).filt = (frontEnd now s).filt := by
  obtain ⟨_, _, _, _, _, _, _, _, _, _, _, _, _, hclass⟩ := classifyUnlessScanning_frame now (frontEnd now s)
  obtain ⟨_, _, _, _, _, _, hgain⟩ := gainLoop_frame now (classifyUnlessScanning now (frontEnd now s))
  rw [pipelinePass, hgain, hclass]
  exact ⟨rfl, rfl, rfl, rfl, rfl⟩

theorem pipelinePass_thr (now : U32) (s : State) :
    (pipelinePass now s).thr = (thresholdUpdate (goertzelFinish s)).thr := by
  obtain ⟨hthr, -⟩ := pipelinePass_keeps_frontEnd now s
  obtain ⟨_, _, hdeb⟩ := debounce_frame now (compared s)
  rw [hthr, frontEnd_eq_debounce, hdeb]
  rfl

/-- The debouncer's outcome in the pass; RAW is the comparator's, and PREV_RAW follows it. -/
theorem pipelinePass_debounce (now : U32) (s : State) :
    (pipelinePass now s).raw = (compared s).raw ∧ (pipelinePass now s).prevRaw = (compared s).raw ∧
    (pipelinePass now s).lastrawt = (debounce now (compared s)).lastrawt ∧
    (pipelinePass now s).filt = (debounce now (compared s)).filt := by
  obtain ⟨-, hraw, hlast, hprev, hfilt⟩ := pipelinePass_keeps_frontEnd now s
  obtain ⟨_, _, hdeb⟩ := debounce_frame now (compared s)
  rw [frontEnd_eq_debounce] at hraw hlast hprev hfilt
  refine ⟨hraw.trans ?_, hprev.trans ?_, hlast, hfilt⟩ <;> rw [hdeb]

/-- The comparator in the pass reads the MAG and the THR the pass leaves. -/
theorem pipelinePass_raw (now : U32) (s : State) :
    (pipelinePass now s).raw = toneOf (fgt (pipelinePass now s).mag (fmul frac (pipelinePass now s).thr)) := by
  obtain ⟨hraw, -⟩ := pipelinePass_debounce now s
  obtain ⟨hmag, -⟩ := pipelinePass_keeps_filter now s
  rw [hraw, hmag, pipelinePass_thr]
  rfl

/-- The filter leaves THR, TFLOOR and REACT, so the average of the pass is that of the old threshold and the new MAG. -/
theorem thresholdAverage_goertzelFinish (now : U32) (s : State) : thresholdAverage (goertzelFinish s) =
    if fgt (pipelinePass now s).mag s.tfloor
    then fadd s.thr (fdiv (fsub (pipelinePass now s).mag s.thr) (fofInt s.react.toNat)) else s.thr := by
  obtain ⟨hmag, -⟩ := pipelinePass_filter now s
  obtain ⟨_, _, hfin⟩ := goertzelFinish_frame s
  rw [hmag, hfin]
  rfl

theorem goertzelFinish_tfloor (s : State) : (goertzelFinish s).tfloor = s.tfloor := by
  obtain ⟨_, _, h⟩ := goertzelFinish_frame s
  rw [h]

/-! ## The obligations -/

/-- Settles O39: the new THR is the average raised to the floor, and a NaN average is not at least the floor. -/
theorem thresholdFollowsMagnitude : Obligations.ThresholdFollowsMagnitude := by
  intro now s
  refine ⟨_, exec_blkend now s, ?_⟩
  intro average
  have hthr : (pipelinePass now s).thr = raisedThreshold average s.tfloor := by
    rw [pipelinePass_thr, thresholdUpdate_thr, thresholdAverage_goertzelFinish now, goertzelFinish_tfloor]
  rw [hthr]
  exact ⟨raisedThreshold_of_fge, raisedThreshold_of_not_fge⟩

/-- Settles O41: RAW is the tone of the comparison with the fraction of the threshold just written. -/
theorem comparatorSetsRaw : Obligations.ComparatorSetsRaw := by
  intro now s
  refine ⟨_, exec_blkend now s, ?_⟩
  rw [pipelinePass_raw, toneOf_eq_present_iff]
  rfl

/-- Settles O42: the pass is the debouncer on the comparator's outcome, by whether RAW changed and whether it has held. -/
theorem debouncerCommitsAfterHold : Obligations.DebouncerCommitsAfterHold := by
  intro now s
  refine ⟨_, exec_blkend now s, ?_⟩
  obtain ⟨hraw, hprev, hlast, hfilt⟩ := pipelinePass_debounce now s
  obtain ⟨kprev, klast, kfilt, khold⟩ := compared_keeps_debouncer s
  rw [hraw, hprev, hlast, hfilt, ← kprev, ← klast, ← kfilt, ← khold]
  exact ⟨(debounce_lastrawt_of_ne · now), (debounce_lastrawt_of_eq · now), rfl, debounce_filt_of_held,
    debounce_filt_of_not_held⟩

end Sys2Proof.Machine
end

section
/-! PROOFS. The timing classifier in the pass (43_timing_classifier.md R130 to R140, R144, R145): that the classifier works on
the registers the pass found and on the tone the front end left, what each edge, the gap, the mark and the stall guard do to a
state, and so what the pass leaves. -/
namespace Sys2Proof.Machine

/-! ## The classifier in the pass -/

/-- `s` with the registers of the front end (filter, threshold, comparator, debouncer) as `o` has them. -/
def State.withFrontEndOf (s o : State) : State :=
  { s with mag := o.mag, q1 := o.q1, q2 := o.q2, scnt := o.scnt, errNum := o.errNum, faultMark := o.faultMark, thr := o.thr,
           raw := o.raw, lastrawt := o.lastrawt, prevRaw := o.prevRaw, filt := o.filt }

/-- That with PREV_FILT set to the new FILT: where an edge's processing begins (R130, R131). -/
def State.edgeTaken (s o : State) : State := { s.withFrontEndOf o with prevFilt := o.filt }

/-- `s` with the registers and the output of the gain loop as `o` has them. -/
def State.withGainLoopOf (s o : State) : State :=
  { s with lcnt := o.lcnt, loud := o.loud, lastloudt := o.lastloudt, loudSeen := o.loudSeen, gain := o.gain,
           setGains := o.setGains }

/-- The stages before the classifier write their own registers only, and the pass leaves those as they wrote them. -/
theorem frontEnd_eq_withFrontEndOf (now : U32) (s : State) : frontEnd now s = s.withFrontEndOf (pipelinePass now s) := by
  obtain ⟨_, _, _, _, _, _, hfront⟩ := frontEnd_frame now s
  obtain ⟨_, _, _, _, _, _, _, _, _, _, _, _, _, hclass⟩ := classifyUnlessScanning_frame now (frontEnd now s)
  obtain ⟨_, _, _, _, _, _, hgain⟩ := gainLoop_frame now (classifyUnlessScanning now (frontEnd now s))
  rw [pipelinePass, hgain, hclass, hfront]
  rfl

theorem gainLoop_eq_withGainLoopOf (now : U32) (s : State) : s.withGainLoopOf (gainLoop now s) = gainLoop now s := by
  obtain ⟨_, _, _, _, _, _, hgain⟩ := gainLoop_frame now s
  rw [hgain]
  rfl

/-- What the pass of timestamp `now` makes of `s`, for the classifier: every register of `t` but those of the front end and of
the gain loop is the classifier's outcome, from `s` with the front end's registers as they are in `t`. -/
def PassLeaves (now : U32) (s t : State) : Prop :=
  (classifyUnlessScanning now (s.withFrontEndOf t)).withGainLoopOf t = t

theorem pipelinePass_passLeaves (now : U32) (s : State) : PassLeaves now s (pipelinePass now s) := by
  rw [PassLeaves, ← frontEnd_eq_withFrontEndOf]
  exact gainLoop_eq_withGainLoopOf now _

theorem exec_blkend_passLeaves (now : U32) (s : State) : ∃ t, exec (.blkend now) s = .next t ∧ PassLeaves now s t :=
  ⟨_, exec_blkend now s, pipelinePass_passLeaves now s⟩

/-! ## Edges and the stall guard (R130, R139) -/

theorem stalled_iff {now : U32} {s : State} :
    stalled now s = true ↔ s.filt = .absent ∧ s.stallDone = false ∧ 6 * s.highdur.toNat < (now - s.lowstart).toNat := by
  simp only [stalled, Bool.and_eq_true, decide_eq_true_eq, Bool.not_eq_true', and_assoc]
  rfl

theorem stallGuard_of_stalled {now : U32} {s : State} (h : stalled now s = true) :
    stallGuard now s = { flush now s with stallDone := true } := if_pos h

theorem stallGuard_of_not_stalled {now : U32} {s : State} (h : ¬stalled now s = true) : stallGuard now s = s := if_neg h

theorem processEdge_of_rise {s : State} (hprev : s.prevFilt = .absent) (hfilt : s.filt = .present) (now : U32) :
    processEdge now s = risingEdge now { s with prevFilt := s.filt } := by
  simp [processEdge, hprev, hfilt]

theorem processEdge_of_fall {s : State} (hprev : s.prevFilt = .present) (hfilt : s.filt = .absent) (now : U32) :
    processEdge now s = fallingEdge now { s with prevFilt := s.filt } := by
  simp [processEdge, hprev, hfilt]

/-- Without an edge only the stall guard runs. -/
theorem classify_of_level {s : State} (h : s.filt = s.prevFilt) (now : U32) : classify now s = stallGuard now s := by
  have hedge : processEdge now s = { s with prevFilt := s.prevFilt } :=
    (if_pos h).trans (congrArg (fun f => { s with prevFilt := f }) h)
  rw [classify, hedge]

/-- A high tone does not stall. -/
theorem classify_of_rise {s : State} (hprev : s.prevFilt = .absent) (hfilt : s.filt = .present) (now : U32) :
    classify now s = risingEdge now { s with prevFilt := s.filt } := by
  rw [classify, processEdge_of_rise hprev hfilt, stallGuard_of_not_stalled]
  obtain ⟨_, _, _, _, hrise⟩ := risingEdge_frame now { s with prevFilt := s.filt }
  rw [stalled_iff, hrise]
  simp [hfilt]

/-- The low run that begins with the falling edge has lasted for no time, so the stall guard does not fire. -/
theorem classify_of_fall {s : State} (hprev : s.prevFilt = .present) (hfilt : s.filt = .absent) (now : U32) :
    classify now s = fallingEdge now { s with prevFilt := s.filt } := by
  rw [classify, processEdge_of_fall hprev hfilt, stallGuard_of_not_stalled]
  obtain ⟨_, _, _, _, _, hfall⟩ := fallingEdge_frame now { s with prevFilt := s.filt }
  rw [stalled_iff, hfall]
  simp

theorem classify_stallDone_of_edge {s : State} (h : s.filt ≠ s.prevFilt) (now : U32) :
    (classify now s).stallDone = false := by
  match hfilt : s.filt, hprev : s.prevFilt with
  | .present, .absent =>
    obtain ⟨_, _, _, _, hrise⟩ := risingEdge_frame now { s with prevFilt := s.filt }
    rw [classify_of_rise hprev hfilt, hrise]
  | .absent, .present =>
    obtain ⟨_, _, _, _, _, hfall⟩ := fallingEdge_frame now { s with prevFilt := s.filt }
    rw [classify_of_fall hprev hfilt, hfall]
  | .present, .present => exact absurd (hfilt.trans hprev.symm) h
  | .absent, .absent => exact absurd (hfilt.trans hprev.symm) h

/-! ## The kinds of pass -/

section
variable {now : U32} {s t : State}

theorem PassLeaves.of_scan (hpass : PassLeaves now s t) (hscan : s.scan = true) :
    (s.edgeTaken t).withGainLoopOf t = t := by
  have hscan' : (s.withFrontEndOf t).scan = true := hscan
  rwa [PassLeaves, classifyUnlessScanning, if_pos hscan'] at hpass

theorem PassLeaves.of_not_scan (hpass : PassLeaves now s t) (hscan : s.scan = false) :
    (classify now (s.withFrontEndOf t)).withGainLoopOf t = t := by
  have hscan' : ¬(s.withFrontEndOf t).scan = true := Bool.eq_false_iff.1 hscan
  rwa [PassLeaves, classifyUnlessScanning, if_neg hscan'] at hpass

theorem PassLeaves.of_level (hpass : PassLeaves now s t) (hscan : s.scan = false) (hfilt : t.filt = s.prevFilt) :
    (stallGuard now (s.withFrontEndOf t)).withGainLoopOf t = t := by
  rw [← classify_of_level (s := s.withFrontEndOf t) hfilt]
  exact hpass.of_not_scan hscan

theorem PassLeaves.of_rise (hpass : PassLeaves now s t) (hscan : s.scan = false) (hprev : s.prevFilt = .absent)
    (hfilt : t.filt = .present) : (risingEdge now (s.edgeTaken t)).withGainLoopOf t = t := by
  have h := hpass.of_not_scan hscan
  rwa [classify_of_rise (s := s.withFrontEndOf t) hprev hfilt] at h

theorem PassLeaves.of_fall (hpass : PassLeaves now s t) (hscan : s.scan = false) (hprev : s.prevFilt = .present)
    (hfilt : t.filt = .absent) : (fallingEdge now (s.edgeTaken t)).withGainLoopOf t = t := by
  have h := hpass.of_not_scan hscan
  rwa [classify_of_fall (s := s.withFrontEndOf t) hprev hfilt] at h

/-- A falling edge leaves the mark in HIGHDUR and the unit that follows it in UNIT. -/
theorem PassLeaves.fall_measures (hpass : PassLeaves now s t) (hscan : s.scan = false) (hprev : s.prevFilt = .present)
    (hfilt : t.filt = .absent) :
    t.highdur = now - s.highstart ∧ t.unit = sat32 (unitAfter s.unit.toNat (now - s.highstart).toNat) := by
  obtain ⟨_, _, _, _, _, hframe⟩ := fallingEdge_frame now (s.edgeTaken t)
  rw [← hpass.of_fall hscan hprev hfilt, hframe]
  exact ⟨rfl, rfl⟩

end

/-! ## Flush and space (44_symbol_decoder.md R163, R165) -/

/-- What a flush emits: the character the buffer spells, if any. -/
def flushedEvents (now : U32) (s : State) : List CharEvent :=
  match decodeBuffer s with
  | some c => [⟨c, now, if s.diag then s.dur else []⟩]
  | none => []

theorem flush_eq (now : U32) (s : State) : flush now s =
    { s with code := [], dur := [], events := s.events ++ flushedEvents now s,
             lastSpace := s.lastSpace && decide (flushedEvents now s = []) } := by
  rcases flush_cases now s with ⟨hd, h⟩ | ⟨c, hd, h⟩
  · simp [h, flushedEvents, hd]
  · simp [h, flushedEvents, hd]

theorem space_eq (now : U32) (s : State) : space now s =
    { s with lastSpace := true, events := s.events ++ if s.lastSpace = true then [] else [⟨0x20, now, []⟩] } := by
  rcases space_cases now s with ⟨hl, h⟩ | ⟨hl, h⟩
  · simp [h, ← hl]
  · simp [h, hl]

/-- A word boundary emits its space where the flush emitted a character or LAST_SPACE was not set. -/
theorem wordBoundary_eq (now : U32) (s : State) : wordBoundary now s =
    { s with code := [], dur := [], lastSpace := true,
             events := s.events ++ flushedEvents now s ++
               if flushedEvents now s = [] ∧ s.lastSpace = true then [] else [⟨0x20, now, []⟩] } := by
  simp only [wordBoundary, space_eq, flush_eq, Bool.and_eq_true, decide_eq_true_eq, and_comm]

/-! ## The gap (R135, R136) -/

section
variable {now l : U32} {s : State}

theorem classifyGap_of_word (h : s.sf10.toNat * s.unit.toNat * lacktime10 s.wpm.toNat ≤ 100 * l.toNat) :
    classifyGap now l s = wordBoundary now s := by
  simp [classifyGap, isWordGap, h]

theorem classifyGap_of_letter (hw : ¬s.sf10.toNat * s.unit.toNat * lacktime10 s.wpm.toNat ≤ 100 * l.toNat)
    (hl : 2 * s.unit.toNat * lacktime10 s.wpm.toNat ≤ 10 * l.toNat ∧
      10 * l.toNat < 5 * s.unit.toNat * lacktime10 s.wpm.toNat) : classifyGap now l s = flush now s := by
  simp [classifyGap, isWordGap, isLetterGap, letterBoundary, hw, hl]

theorem classifyGap_of_neither (hw : ¬s.sf10.toNat * s.unit.toNat * lacktime10 s.wpm.toNat ≤ 100 * l.toNat)
    (hl : ¬(2 * s.unit.toNat * lacktime10 s.wpm.toNat ≤ 10 * l.toNat ∧
      10 * l.toNat < 5 * s.unit.toNat * lacktime10 s.wpm.toNat)) : classifyGap now l s = s := by
  rw [classifyGap, if_neg (by simpa [isWordGap] using hw), if_neg (by simpa [isLetterGap] using hl)]

end

/-! ## The unit duration (R133) -/

theorem toNat_sat32 (v : Nat) : (sat32 v).toNat = min v (2 ^ 32 - 1) := by
  rw [sat32, BitVec.toNat_ofNat]
  omega

/-- A mark of 1 ms or more leaves a positive unit, also where the first test's division gives 0. -/
theorem unitAfter_pos (u : Nat) {h : Nat} (hh : 1 ≤ h) : 1 ≤ unitAfter u h := by
  unfold unitAfter
  dsimp only
  split <;> split <;> omega

/-- Between two and five units a mark passes neither test. -/
theorem unitAfter_of_between {u h : Nat} (hu : 1 ≤ u) (hlo : 2 * u ≤ h) (hhi : h ≤ 5 * u) : unitAfter u h = u := by
  have h1 : ¬(h < 2 * u ∨ u = 0) := by omega
  simp only [unitAfter, h1, if_false, not_lt.2 hhi]

/-! ## The speed estimate and the block size (R140, R144, R145) -/

/-- The integer clamp is exact, for the same reason as `toNat_clampU32`. -/
theorem toNat_clampInt (lo hi : U32) (v : Int) :
    ((clampInt lo hi v).toNat : Int) = max (lo.toNat : Int) (min (hi.toNat : Int) v) := by
  have hlo := lo.isLt
  have hhi := hi.isLt
  rw [clampInt, BitVec.toNat_ofInt]
  omega

/-- `t` has the block size that the WPM of `t` asks for in `s` (R144, R145). -/
def SizedFrom (s t : State) : Prop :=
  let c : Int := max (s.nbmin.toNat : Int) (min (s.cfg.nbMax.toNat : Int) ((1290 - 20 * (t.wpm.toNat : Int)) / 9))
  (2 < (c - s.nbs.toNat).natAbs → (t.nbs.toNat : Int) = c ∧ t.nbsChg = true) ∧
  (¬(2 < (c - s.nbs.toNat).natAbs) → t.nbs = s.nbs ∧ t.nbsChg = s.nbsChg)

/-- `t` has the speed estimate of `s` updated with a unit of `um` ms, and the block size that follows it (R140). -/
def SpedFrom (s t : State) (um : Nat) : Prop :=
  (1 ≤ um → t.wpm.toNat = (s.wpm.toNat + 1200 / um) / 2 ∧ SizedFrom s t) ∧
  (um = 0 → t.wpm = s.wpm ∧ t.nbs = s.nbs ∧ t.nbsChg = s.nbsChg)

theorem nbsUpdate_of_far {s : State}
    (h : 2 < (((candidateSize s.nbmin s.cfg.nbMax s.wpm).toNat : Int) - s.nbs.toNat).natAbs) :
    nbsUpdate s = { s with nbs := candidateSize s.nbmin s.cfg.nbMax s.wpm, nbsChg := true } := if_pos h

theorem nbsUpdate_of_near {s : State}
    (h : ¬2 < (((candidateSize s.nbmin s.cfg.nbMax s.wpm).toNat : Int) - s.nbs.toNat).natAbs) :
    nbsUpdate s = s := if_neg h

theorem nbsUpdate_sizedFrom (s : State) : SizedFrom s (nbsUpdate s) := by
  have hc : ((candidateSize s.nbmin s.cfg.nbMax s.wpm).toNat : Int) = max (s.nbmin.toNat : Int)
      (min (s.cfg.nbMax.toNat : Int) ((1290 - 20 * (s.wpm.toNat : Int)) / 9)) := toNat_clampInt _ _ _
  have hwpm : (nbsUpdate s).wpm = s.wpm := by
    obtain ⟨_, _, h⟩ := nbsUpdate_frame s
    rw [h]
  rw [SizedFrom, hwpm, ← hc]
  refine ⟨fun h => ?far, fun h => ?near⟩
  case far => rw [nbsUpdate_of_far h]; exact ⟨rfl, rfl⟩
  case near => rw [nbsUpdate_of_near h]; exact ⟨rfl, rfl⟩

theorem toNat_wpmAfter (w : U32) (um : Nat) : (BitVec.ofNat 32 (wpmAfter w.toNat um)).toNat = (w.toNat + 1200 / um) / 2 := by
  have hw := w.isLt
  have hdiv : 1200 / um ≤ 1200 := Nat.div_le_self _ _
  rw [BitVec.toNat_ofNat, wpmAfter]
  exact Nat.mod_eq_of_lt (by omega)

theorem speedUpdate_spedFrom (sym : Symbol) (h : U32) (s : State) :
    SpedFrom s (speedUpdate sym h s) (unitMillis sym h) := by
  refine ⟨fun hum => ?updated, fun hum => ?skipped⟩
  case updated =>
    rw [speedUpdate, if_pos hum]
    generalize hs : { s with wpm := BitVec.ofNat 32 (wpmAfter s.wpm.toNat (unitMillis sym h)) } = s1
    obtain ⟨_, _, hnbs⟩ := nbsUpdate_frame s1
    refine ⟨?wpm, ?size⟩
    case wpm => rw [hnbs, ← toNat_wpmAfter, ← hs]
    case size =>
      have hsized := nbsUpdate_sizedFrom s1
      subst hs
      exact hsized
  case skipped =>
    rw [speedUpdate, if_neg (by omega)]
    exact ⟨rfl, rfl, rfl⟩

/-! ## The mark (R134; 44_symbol_decoder.md R160) -/

/-- `t` has the buffer of `s` with the symbol appended, or, where it was full, an empty one. -/
def AppendedTo (sym : Symbol) (h : U32) (s t : State) : Prop :=
  (s.code.length = 7 → t.code = [] ∧ t.dur = []) ∧
  (s.code.length ≠ 7 → t.code = s.code ++ [sym] ∧ t.dur = s.dur ++ [h])

section
variable {u h : Nat}

theorem markSymbol_of_dot (hdot : 3 * u < 5 * h ∧ h < 2 * u) : markSymbol u h = some .dot := if_pos hdot

theorem markSymbol_of_dash (hdash : 2 * u ≤ h ∧ h < 6 * u) : markSymbol u h = some .dash := by
  rw [markSymbol, if_neg (by omega), if_pos hdash]

theorem markSymbol_of_noise (hdot : ¬(3 * u < 5 * h ∧ h < 2 * u)) (hdash : ¬(2 * u ≤ h ∧ h < 6 * u)) :
    markSymbol u h = none := by
  rw [markSymbol, if_neg hdot, if_neg hdash]

end

theorem classifyMark_of_none {h : U32} {s : State} (hm : markSymbol s.unit.toNat h.toNat = none) :
    classifyMark h s = s := by
  rw [classifyMark, hm]

/-- A confirmed symbol is appended and updates the speed estimate, also where the append found the buffer full. -/
theorem classifyMark_of_some {h : U32} {s : State} {sym : Symbol} (hm : markSymbol s.unit.toNat h.toNat = some sym) :
    AppendedTo sym h s (classifyMark h s) ∧ SpedFrom s (classifyMark h s) (unitMillis sym h) := by
  have hsped := speedUpdate_spedFrom sym h (appendSymbol sym h s)
  obtain ⟨_, _, _, hframe⟩ := speedUpdate_frame sym h (appendSymbol sym h s)
  rw [classifyMark, hm]
  dsimp only
  rw [hframe] at hsped ⊢
  rcases appendSymbol_frame sym h s with ⟨hfull, happ⟩ | ⟨hroom, happ⟩
  · rw [happ] at hsped ⊢
    exact ⟨⟨fun _ => ⟨rfl, rfl⟩, fun hne => absurd hfull hne⟩, hsped⟩
  · rw [happ] at hsped ⊢
    exact ⟨⟨fun hfull => absurd hfull hroom, fun _ => ⟨rfl, rfl⟩⟩, hsped⟩

/-- The falling edge classifies the mark at the unit as just updated (R130). -/
theorem fallingEdge_of_some {now : U32} {s : State} {sym : Symbol}
    (hm : markSymbol (sat32 (unitAfter s.unit.toNat (now - s.highstart).toNat)).toNat (now - s.highstart).toNat = some sym) :
    AppendedTo sym (now - s.highstart) s (fallingEdge now s) ∧
    SpedFrom s (fallingEdge now s) (unitMillis sym (now - s.highstart)) :=
  classifyMark_of_some (s := updateUnit (now - s.highstart)
    { s with stallDone := false, highdur := now - s.highstart, lowstart := now }) hm

theorem fallingEdge_of_none {now : U32} {s : State}
    (hm : markSymbol (sat32 (unitAfter s.unit.toNat (now - s.highstart).toNat)).toNat (now - s.highstart).toNat = none) :
    fallingEdge now s = updateUnit (now - s.highstart)
      { s with stallDone := false, highdur := now - s.highstart, lowstart := now } :=
  classifyMark_of_none (s := updateUnit (now - s.highstart) _) hm

/-- The pass of a falling edge leaves the outcome of the mark in HIGHDUR at the unit in UNIT. -/
theorem PassLeaves.fall_symbol {now : U32} {s t : State} {sym : Symbol} (hpass : PassLeaves now s t)
    (hscan : s.scan = false) (hprev : s.prevFilt = .present) (hfilt : t.filt = .absent)
    (hm : markSymbol t.unit.toNat t.highdur.toNat = some sym) :
    AppendedTo sym t.highdur s t ∧ SpedFrom s t (unitMillis sym t.highdur) := by
  obtain ⟨hhigh, hunit⟩ := hpass.fall_measures hscan hprev hfilt
  rw [hhigh, hunit] at hm
  have hstage : AppendedTo sym (now - s.highstart) s ((fallingEdge now (s.edgeTaken t)).withGainLoopOf t) ∧
      SpedFrom s ((fallingEdge now (s.edgeTaken t)).withGainLoopOf t) (unitMillis sym (now - s.highstart)) :=
    fallingEdge_of_some (s := s.edgeTaken t) hm
  rwa [hpass.of_fall hscan hprev hfilt, ← hhigh] at hstage

/-- A mark that is noise leaves the buffer and the speed estimate. -/
theorem PassLeaves.fall_noise {now : U32} {s t : State} (hpass : PassLeaves now s t)
    (hscan : s.scan = false) (hprev : s.prevFilt = .present) (hfilt : t.filt = .absent)
    (hm : markSymbol t.unit.toNat t.highdur.toNat = none) :
    t.code = s.code ∧ t.dur = s.dur ∧ t.wpm = s.wpm ∧ t.nbs = s.nbs ∧ t.nbsChg = s.nbsChg := by
  obtain ⟨hhigh, hunit⟩ := hpass.fall_measures hscan hprev hfilt
  rw [hhigh, hunit] at hm
  rw [← hpass.of_fall hscan hprev hfilt, fallingEdge_of_none (s := s.edgeTaken t) hm]
  exact ⟨rfl, rfl, rfl, rfl, rfl⟩

/-! ## The obligations -/

/-- Settles O43: while scanning the fourth stage only sets PREV_FILT, and no other stage writes the decoder. -/
theorem scanningSuspendsDecoding : Obligations.ScanningSuspendsDecoding := by
  intro now s hscan
  obtain ⟨t, hexec, hpass⟩ := exec_blkend_passLeaves now s
  refine ⟨t, hexec, ?_⟩
  rw [← hpass.of_scan hscan]
  exact ⟨rfl, rfl, rfl, rfl, rfl, rfl, rfl, rfl, rfl, rfl, rfl, rfl, rfl, rfl⟩

/-- Settles O44: the rising edge makes its own writes, and the gap's three cases decide the rest. -/
theorem risingEdgeClassifiesGap : Obligations.RisingEdgeClassifiesGap := by
  intro now s hscan hprev
  obtain ⟨t, hexec, hpass⟩ := exec_blkend_passLeaves now s
  refine ⟨t, hexec, fun hfilt => ?_⟩
  have hrise := hpass.of_rise hscan hprev hfilt
  obtain ⟨_, _, _, _, hframe⟩ := risingEdge_frame now (s.edgeTaken t)
  have hedge := hrise.symm
  rw [hframe] at hedge
  have field {α : Type} (f : State → α) := congrArg f hedge
  have hlow : t.lowdur = now - s.lowstart := field State.lowdur
  rw [hlow]
  refine ⟨rfl, field State.highstart, (field State.prevFilt).trans hfilt, field State.stallDone, field State.highdur,
    field State.lowstart, field State.unit, field State.wpm, field State.nbs, field State.nbsChg, fun hword => ?word,
    fun hword hletter => ?letter, fun hword hletter => ?neither⟩
  case word =>
    rw [risingEdge, classifyGap_of_word, wordBoundary_eq] at hrise
    · rw [← hrise]
      exact ⟨rfl, rfl, rfl, rfl⟩
    · exact hword
  case letter =>
    rw [risingEdge, classifyGap_of_letter, flush_eq] at hrise
    · rw [← hrise]
      exact ⟨rfl, rfl, rfl, rfl⟩
    · exact hword
    · exact hletter
  case neither =>
    rw [risingEdge, classifyGap_of_neither] at hrise
    · rw [← hrise]
      exact ⟨rfl, rfl, rfl, rfl⟩
    · exact hword
    · exact hletter

/-- Settles O45: the falling edge makes its own writes, the new UNIT among them, saturated from `unitAfter`. -/
theorem fallingEdgeUpdatesUnit : Obligations.FallingEdgeUpdatesUnit := by
  intro now s hscan hprev
  obtain ⟨t, hexec, hpass⟩ := exec_blkend_passLeaves now s
  refine ⟨t, hexec, fun hfilt => ?_⟩
  have hedge := (hpass.of_fall hscan hprev hfilt).symm
  obtain ⟨_, _, _, _, _, hframe⟩ := fallingEdge_frame now (s.edgeTaken t)
  rw [hframe] at hedge
  have field {α : Type} (f : State → α) := congrArg f hedge
  obtain ⟨hhigh, hmeasured⟩ := hpass.fall_measures hscan hprev hfilt
  have hunit : t.unit.toNat = min (unitAfter s.unit.toNat t.highdur.toNat) (2 ^ 32 - 1) := by
    rw [hmeasured, hhigh, toNat_sat32]
  refine ⟨hhigh, field State.lowstart, (field State.prevFilt).trans hfilt, field State.stallDone, field State.lowdur,
    field State.highstart, field State.events, field State.lastSpace, hunit, fun hmark => ?positive, fun hpos hlo hhi => ?kept⟩
  case positive =>
    have := unitAfter_pos s.unit.toNat hmark
    omega
  case kept =>
    rw [unitAfter_of_between hpos hlo hhi] at hunit
    exact BitVec.eq_of_toNat_eq (by omega)

/-- Settles O46: the falling edge classifies the mark it leaves in HIGHDUR at the unit it leaves in UNIT; a dot and a dash
differ in their window and in `um` only. -/
theorem fallingEdgeClassifiesMark : Obligations.FallingEdgeClassifiesMark := by
  intro now s hscan hprev
  obtain ⟨t, hexec, hpass⟩ := exec_blkend_passLeaves now s
  refine ⟨t, hexec, fun hfilt => ?_⟩
  exact ⟨fun hdot => hpass.fall_symbol hscan hprev hfilt (markSymbol_of_dot hdot),
    fun hdash => hpass.fall_symbol hscan hprev hfilt (markSymbol_of_dash hdash),
    fun hdot hdash => hpass.fall_noise hscan hprev hfilt (markSymbol_of_noise hdot hdash)⟩

/-- Settles O47: an edge re-arms the stall guard, which then does not fire; without an edge the guard is all that runs. -/
theorem stallGuardFlushesOnce : Obligations.StallGuardFlushesOnce := by
  intro now s hscan
  obtain ⟨t, hexec, hpass⟩ := exec_blkend_passLeaves now s
  refine ⟨t, hexec, fun hne => ?edge, fun hfilt => ?level⟩
  case edge =>
    rw [← hpass.of_not_scan hscan]
    exact classify_stallDone_of_edge (s := s.withFrontEndOf t) hne now
  case level =>
    have hlevel := hpass.of_level hscan hfilt
    obtain ⟨_, _, _, _, _, hframe⟩ := stallGuard_frame now (s.withFrontEndOf t)
    have hguard := hlevel.symm
    rw [hframe] at hguard
    have field {α : Type} (f : State → α) := congrArg f hguard
    have hfires := stalled_iff (now := now) (s := s.withFrontEndOf t)
    refine ⟨(field State.prevFilt).trans hfilt.symm, field State.highdur, field State.lowdur, field State.highstart,
      field State.lowstart, field State.unit, field State.wpm, field State.nbs, field State.nbsChg, fun hf => ?fires,
      fun hf => ?rests⟩
    case fires =>
      rw [stallGuard_of_stalled (hfires.2 hf), flush_eq] at hlevel
      rw [← hlevel]
      exact ⟨rfl, rfl, rfl, rfl, rfl⟩
    case rests =>
      rw [stallGuard_of_not_stalled (mt hfires.1 hf)] at hlevel
      rw [← hlevel]
      exact ⟨rfl, rfl, rfl, rfl, rfl⟩

end Sys2Proof.Machine
end

section
/-! PROOFS. The gain loop (45_gain_controller.md R181 to R186): a WR to GAIN; the average that the band correction works on
in the pass; what the loop asks for in each loudness band; and what the correction makes of that. -/
namespace Sys2Proof.Machine

/-! ## The average in the pass (R181) -/

/-- The count grows to LA_N and stops. -/
theorem loudnessAverage_lcnt (s : State) : (loudnessAverage s).lcnt =
    if s.lcnt.toNat < s.cfg.laN.toNat then s.lcnt + 1 else s.lcnt := rfl

theorem loudnessAverage_loud (s : State) : (loudnessAverage s).loud =
    fadd s.loud (fdiv (fsub s.mag s.loud) (fofInt (loudnessAverage s).lcnt.toNat)) := rfl

/-- The state the gain loop works on in the pass. -/
def classified (now : U32) (s : State) : State := classifyUnlessScanning now (frontEnd now s)

/-- The state the band correction works on in the pass. -/
def averaged (now : U32) (s : State) : State := loudnessAverage (classified now s)

theorem pipelinePass_eq_bandCorrection (now : U32) (s : State) :
    pipelinePass now s = bandCorrection now (averaged now s) := rfl

/-- The stages before the gain loop leave its registers and its output as they were. -/
theorem classified_keeps_gainLoop (now : U32) (s : State) :
    (classified now s).lcnt = s.lcnt ∧ (classified now s).loud = s.loud ∧ (classified now s).gain = s.gain ∧
    (classified now s).setGains = s.setGains ∧ (classified now s).lastloudt = s.lastloudt ∧
    (classified now s).loudSeen = s.loudSeen ∧ (classified now s).cfg = s.cfg := by
  obtain ⟨_, _, _, _, _, _, hfront⟩ := frontEnd_frame now s
  obtain ⟨_, _, _, _, _, _, _, _, _, _, _, _, _, hclass⟩ := classifyUnlessScanning_frame now (frontEnd now s)
  rw [classified, hclass, hfront]
  exact ⟨rfl, rfl, rfl, rfl, rfl, rfl, rfl⟩

/-- Of the gain loop's registers the average writes LCNT and LOUD only. -/
theorem averaged_keeps_gain (now : U32) (s : State) :
    (averaged now s).gain = s.gain ∧ (averaged now s).setGains = s.setGains ∧
    (averaged now s).lastloudt = s.lastloudt ∧ (averaged now s).loudSeen = s.loudSeen ∧
    (averaged now s).cfg = s.cfg := by
  obtain ⟨-, -, hkeep⟩ := classified_keeps_gainLoop now s
  rw [averaged]
  generalize classified now s = c at hkeep ⊢
  exact hkeep

theorem averaged_lcnt (now : U32) (s : State) : (averaged now s).lcnt =
    if s.lcnt.toNat < s.cfg.laN.toNat then s.lcnt + 1 else s.lcnt := by
  obtain ⟨hlcnt, -, -, -, -, -, hcfg⟩ := classified_keeps_gainLoop now s
  rw [averaged, loudnessAverage_lcnt, hlcnt, hcfg]

theorem bandCorrection_keeps_average (now : U32) (s : State) :
    (bandCorrection now s).loud = s.loud ∧ (bandCorrection now s).mag = s.mag := by
  obtain ⟨_, _, h⟩ | ⟨_, _, _, -, -, h⟩ := bandCorrection_cases now s
  · rw [h]; exact ⟨rfl, rfl⟩
  · rw [h]; exact ⟨rfl, rfl⟩

/-- The average of the pass is that of the old loudness and the MAG of the same pass, over the new count. -/
theorem averaged_loud (now : U32) (s : State) : (averaged now s).loud =
    fadd s.loud (fdiv (fsub (averaged now s).mag s.loud) (fofInt (averaged now s).lcnt.toNat)) := by
  obtain ⟨-, hloud, -⟩ := classified_keeps_gainLoop now s
  rw [averaged, ← hloud]
  generalize classified now s = c
  exact loudnessAverage_loud c

/-! ## What each band asks for (R183, R184) -/

section
variable {now : U32} {s : State}

theorem recentlyLoud_iff : recentlyLoud now s = true ↔
    s.loudSeen = true ∧ (now - s.lastloudt).toNat < s.cfg.gRecent.toNat := by
  rw [recentlyLoud, Bool.and_eq_true, decide_eq_true_iff]
  rfl

theorem inLoudBand_iff : inLoudBand s = true ↔ fge s.loud s.cfg.gT1 = true ∨ fge s.loud s.cfg.gT2 = true :=
  Bool.or_eq_true_iff

theorem bandTarget_of_veryLoud (h : fge s.loud s.cfg.gT1 = true) :
    bandTarget now s = (s.gain.toNat : Int) - s.cfg.gD1 := if_pos h

theorem bandTarget_of_moderatelyLoud (h1 : fge s.loud s.cfg.gT1 = false) (h2 : fge s.loud s.cfg.gT2 = true) :
    bandTarget now s = (s.gain.toNat : Int) - s.cfg.gD2 := by
  rw [bandTarget, if_neg (Bool.eq_false_iff.1 h1), if_pos h2]

/-- Below the loud bands GAIN is kept or raised. -/
theorem bandTarget_of_not_loud (h : ¬inLoudBand s = true) : bandTarget now s =
    if fge s.loud s.cfg.gT3 then (s.gain.toNat : Int)
    else if !recentlyLoud now s then
      (s.gain.toNat : Int) + (if flt s.loud s.cfg.gT4 then s.cfg.gU2 else s.cfg.gU1 : Nat)
    else s.gain.toNat := by
  obtain ⟨h1, h2⟩ := not_or.1 (mt inLoudBand_iff.2 h)
  rw [bandTarget, if_neg h1, if_neg h2]

theorem bandTarget_of_audible (h : ¬inLoudBand s = true) (h3 : fge s.loud s.cfg.gT3 = true) :
    bandTarget now s = s.gain.toNat := by
  rw [bandTarget_of_not_loud h, if_pos h3]

theorem bandTarget_of_recentlyLoud (h : ¬inLoudBand s = true) (h3 : fge s.loud s.cfg.gT3 = false)
    (hr : recentlyLoud now s = true) : bandTarget now s = s.gain.toNat := by
  rw [bandTarget_of_not_loud h, if_neg (Bool.eq_false_iff.1 h3), if_neg (by simp [hr])]

/-- A very quiet band that was not loud of late raises GAIN, the quietest one by more. -/
theorem bandTarget_of_veryQuiet (h : ¬inLoudBand s = true) (h3 : fge s.loud s.cfg.gT3 = false)
    (hr : ¬recentlyLoud now s = true) : bandTarget now s =
    (s.gain.toNat : Int) + (if flt s.loud s.cfg.gT4 then s.cfg.gU2 else s.cfg.gU1 : Nat) := by
  rw [bandTarget_of_not_loud h, if_neg (Bool.eq_false_iff.1 h3), if_pos (by simp [hr])]

/-! ## The band correction (R182, R184, R185) -/

/-- The gain the loop sets: what the band asks for, clamped. -/
def bandGain (now : U32) (s : State) : U32 := clampInt s.cfg.gainMin s.cfg.gainMax (bandTarget now s)

theorem toNat_bandGain : ((bandGain now s).toNat : Int) =
    max (s.cfg.gainMin.toNat : Int) (min (s.cfg.gainMax.toNat : Int) (bandTarget now s)) := toNat_clampInt _ _ _

theorem markLoud_of_loud (h : inLoudBand s = true) : markLoud now s = { s with lastloudt := now, loudSeen := true } :=
  if_pos h

theorem markLoud_of_not_loud (h : ¬inLoudBand s = true) : markLoud now s = s := if_neg h

theorem bandCorrection_of_unsettled (h : s.lcnt ≠ s.cfg.laN) : bandCorrection now s = s :=
  if_neg (mt of_decide_eq_true h)

theorem bandCorrection_of_settled (h : s.lcnt = s.cfg.laN) : bandCorrection now s =
    if bandGain now s ≠ s.gain then
      { (markLoud now s).emitSetGain (bandGain now s) with gain := bandGain now s, lcnt := 0 }
    else markLoud now s := if_pos (decide_eq_true h)

theorem bandCorrection_of_changed (h : s.lcnt = s.cfg.laN) (hg : bandGain now s ≠ s.gain) :
    (bandCorrection now s).gain = bandGain now s ∧
    (bandCorrection now s).setGains = s.setGains ++ [bandGain now s] ∧ (bandCorrection now s).lcnt = 0 := by
  obtain ⟨_, _, hmark⟩ := markLoud_frame now s
  rw [bandCorrection_of_settled h, if_pos hg, hmark]
  exact ⟨rfl, rfl, rfl⟩

theorem bandCorrection_of_kept (h : s.lcnt = s.cfg.laN) (hg : bandGain now s = s.gain) :
    (bandCorrection now s).gain = s.gain ∧ (bandCorrection now s).setGains = s.setGains ∧
    (bandCorrection now s).lcnt = s.lcnt := by
  obtain ⟨_, _, hmark⟩ := markLoud_frame now s
  rw [bandCorrection_of_settled h, if_neg (not_not.2 hg), hmark]
  exact ⟨rfl, rfl, rfl⟩

/-- The stamp of a settled pass is that of the band, whether or not the gain changes. -/
theorem bandCorrection_stamp (h : s.lcnt = s.cfg.laN) :
    (bandCorrection now s).lastloudt = (markLoud now s).lastloudt ∧
    (bandCorrection now s).loudSeen = (markLoud now s).loudSeen := by
  rw [bandCorrection_of_settled h]
  split
  · exact ⟨rfl, rfl⟩
  · exact ⟨rfl, rfl⟩

end

/-! ## The obligations -/

/-- Settles O51: the pass ends with the band correction of the averaged state; the target is `bandTarget`, band by band. -/
theorem gainLoopCorrectsByBand : Obligations.GainLoopCorrectsByBand := by
  intro now s
  refine ⟨_, exec_blkend now s, ?_⟩
  obtain ⟨hgain, hset, hlast, hseen, hcfg⟩ := averaged_keeps_gain now s
  obtain ⟨hloud, -⟩ := bandCorrection_keeps_average now (averaged now s)
  rw [pipelinePass_eq_bandCorrection, hloud, ← averaged_lcnt now s, ← hgain, ← hset, ← hlast, ← hseen, ← hcfg]
  generalize averaged now s = a
  intro n recent loudBand
  refine ⟨fun hn => ?unsettled, fun hn => ?settled⟩
  case unsettled => rw [bandCorrection_of_unsettled hn]; exact ⟨rfl, rfl, rfl, rfl, rfl⟩
  obtain ⟨hstamp, hflag⟩ := bandCorrection_stamp (now := now) hn
  have hband : inLoudBand a = true ↔ loudBand := inLoudBand_iff
  have hrecent : recentlyLoud now a = true ↔ recent := recentlyLoud_iff
  rw [hstamp, hflag, ← hband, ← hrecent]
  refine ⟨fun hl => ?loud, fun hl => ?notLoud, bandTarget now a, bandTarget_of_veryLoud,
    bandTarget_of_moderatelyLoud, bandTarget_of_audible, bandTarget_of_recentlyLoud,
    fun hl h3 hr h4 => ?quietest, fun hl h3 hr h4 => ?quiet, ?clamped⟩
  case loud => rw [markLoud_of_loud hl]; exact ⟨rfl, rfl⟩
  case notLoud => rw [markLoud_of_not_loud hl]; exact ⟨rfl, rfl⟩
  case quietest => rw [bandTarget_of_veryQuiet hl h3 hr, if_pos h4]
  case quiet => rw [bandTarget_of_veryQuiet hl h3 hr, if_neg (Bool.eq_false_iff.1 h4)]
  case clamped =>
    rw [← toNat_bandGain]
    refine ⟨fun hg => ?changed, fun hg => bandCorrection_of_kept hn (BitVec.eq_of_toNat_eq (Int.ofNat_inj.1 hg))⟩
    obtain ⟨hnew, hemit, hcount⟩ := bandCorrection_of_changed hn fun heq => hg (by rw [heq])
    rw [hnew, hemit]
    exact ⟨rfl, rfl, hcount⟩

/-- Settles O50: the average is the averaged state's; the band correction keeps its count or clears it with a SetGain. -/
theorem loudnessAverageFollowsMagnitude : Obligations.LoudnessAverageFollowsMagnitude := by
  intro now s
  refine ⟨_, exec_blkend now s, ?_⟩
  obtain ⟨-, hset, -⟩ := averaged_keeps_gain now s
  obtain ⟨hloud, hmag⟩ := bandCorrection_keeps_average now (averaged now s)
  rw [pipelinePass_eq_bandCorrection, hloud, hmag, ← averaged_lcnt now s, ← hset]
  refine ⟨averaged_loud now s, ?_⟩
  generalize averaged now s = a
  obtain ⟨_, _, hkept⟩ | ⟨_, _, g, -, -, hchanged⟩ := bandCorrection_cases now a
  · rw [hkept]
    exact .inl ⟨rfl, rfl⟩
  · rw [hchanged]
    exact .inr ⟨by simp, rfl⟩

/-- Settles O32: WR to index 8 is `writeGain`, and its clamp is exact. -/
theorem wrGainEmitsAndRestartsAverage : Obligations.WrGainEmitsAndRestartsAverage := fun v s =>
  ⟨clampU32 s.cfg.gainMin s.cfg.gainMax v, toNat_clampU32 _ _ _, exec_wr_mapped (r := .gain) rfl v s⟩

end Sys2Proof.Machine
end

section
/-! PROOFS. Commands as transported bytes (20_memory.md R53; 30_encoding.md R71 to R78), and the assembler's source lines
(R79 to R81): what a line in its ranges expands to, and which lines are refused. -/
namespace Sys2Proof

open Machine

/-! ## Bytes (20_memory.md R53) -/

theorem length_bytesOfWord (w : CommandWord) : (bytesOfWord w).length = 6 := rfl

/-- The decoder reads a word back from its bytes and leaves the bytes after it. -/
theorem decodeBytes_bytesOfWord_append (w : CommandWord) (rest : List Byte) :
    decodeBytes (bytesOfWord w ++ rest) = (decode w).map fun i => (i, rest) := by
  simp only [bytesOfWord, List.cons_append, List.nil_append, decodeBytes, wordOfBytes_byteOfWord]
  cases decode w with
  | ok i => rfl
  | error e => rfl

theorem decodeBytes_encodeBytes_append (i : Instr) (rest : List Byte) :
    decodeBytes (encodeBytes i ++ rest) = .ok (i, rest) := by
  rw [encodeBytes, decodeBytes_bytesOfWord_append, decode_encode]
  rfl

theorem decodeTableWord_encode (i : Instr) : decodeTableWord 48 (encode i).toNat = some i := by
  have hbytes : decodeBytes (encodeBytes i) = .ok (i, []) := by
    simpa using decodeBytes_encodeBytes_append i []
  rw [decodeTableWord, Nat.mod_eq_of_lt (encode i).isLt, BitVec.ofNat_toNat, BitVec.setWidth_eq, ← encodeBytes, hbytes]

/-! ## Operands of a source line (30_encoding.md R79, R80) -/

theorem toInt_ofInt_of_int16Ok {x : Int} (h : int16Ok x = true) : (BitVec.ofInt 16 x).toInt = x := by
  simp only [int16Ok, Bool.and_eq_true, decide_eq_true_eq] at h
  rw [BitVec.toInt_ofInt]
  exact Int.bmod_eq_of_le (by omega) (by omega)

theorem toNat_ofNat_of_u32Ok {n : Nat} (h : u32Ok n = true) : (BitVec.ofNat 32 n).toNat = n :=
  (BitVec.toNat_ofNat n 32).trans (Nat.mod_eq_of_lt (of_decide_eq_true h))

theorem int16Ok_eq_false_iff {x : Int} : int16Ok x = false ↔ x < -32768 ∨ 32767 < x := by
  simp only [int16Ok, Bool.and_eq_false_iff, decide_eq_false_iff_not, not_le]

theorem u32Ok_eq_false_iff {n : Nat} : u32Ok n = false ↔ 2 ^ 32 ≤ n := by
  simp only [u32Ok, decide_eq_false_iff_not, not_lt]

theorem regOk_eq_false_iff {r : AsmReg} : regOk r = false ↔ ∃ n, r = .raw n ∧ 255 < n := by
  cases r <;> simp [regOk]

theorem valueOk_eq_false_iff {v : AsmValue} : valueOk v = false ↔ ∃ n, v = .int n ∧ 2 ^ 32 ≤ n := by
  cases v <;> simp [valueOk, u32Ok]

/-- The index a register operand names (R80): a register's own, or the raw one. -/
def AsmReg.Names (r : AsmReg) (a : Byte) : Prop :=
  match r with
  | .named q => a = regIndex q
  | .raw n => a.toNat = n

/-- The 32 bits a `<value>` stands for (R79). -/
def AsmValue.Holds (v : AsmValue) (d : U32) : Prop :=
  match v with
  | .int n => d.toNat = n
  | .float x => d = floatLiteral x

theorem names_operandIndex {r : AsmReg} (h : regOk r = true) : r.Names (operandIndex r) := by
  cases r with
  | named q => rfl
  | raw n =>
    have hn : n ≤ 255 := of_decide_eq_true h
    exact (BitVec.toNat_ofNat n 8).trans (Nat.mod_eq_of_lt (by omega))

theorem holds_operandValue {v : AsmValue} (h : valueOk v = true) : v.Holds (operandValue v) := by
  cases v with
  | int n => exact toNat_ofNat_of_u32Ok h
  | float x => rfl

/-! ## Lines -/

theorem assembleLine_eq_none_iff {l : AsmLine} : assembleLine l = none ↔ l.wellFormed = false := by
  rw [assembleLine]
  cases l.wellFormed <;> simp

theorem assembleLine_eq_some_iff {l : AsmLine} {is : List Instr} :
    assembleLine l = some is ↔ l.wellFormed = true ∧ expandLine l = is := by
  rw [assembleLine]
  cases l.wellFormed <;> simp

/-- The samples of a block keep their values. -/
theorem map_toInt_map_ofInt {xs : List Int} (h : xs.all int16Ok = true) :
    (xs.map (BitVec.ofInt 16)).map BitVec.toInt = xs := by
  rw [List.map_map]
  refine (List.map_congr_left fun x hx => ?_).trans (List.map_id xs)
  exact toInt_ofInt_of_int16Ok (List.all_eq_true.1 h x hx)

/-- The index of DURi follows that of CODE (10_state.md R21). -/
theorem toNat_regIndex_dur : ∀ i : Fin 11, (regIndex (.dur i)).toNat = 0x1A + i.val := by decide

/-! ## The obligations -/

/-- Settles O1: the decoder inverts the encoder, and a word is read back from its bytes. -/
theorem decodeOfEncodedBytes : Obligations.DecodeOfEncodedBytes := fun i rest =>
  ⟨decode_encode i, decodeBytes_encodeBytes_append i rest, length_bytesOfWord (encode i), decodeTableWord_encode i⟩

/-- Settles O4: the bytes of `bytesOfWord` by position, and the decoder on them. -/
theorem transportIsLittleEndian : Obligations.TransportIsLittleEndian := by
  refine fun w rest => ⟨fun k hk => ?_, decodeBytes_bytesOfWord_append w rest⟩
  match k with
  | 0 | 1 | 2 | 3 | 4 | 5 => rfl
  | k + 6 => omega

/-- Settles O5: the OP of each word selects its command, whose operands are the word's fields. -/
theorem spelledWordsDecode : Obligations.SpelledWordsDecode := by
  refine ⟨?nop, ?sample, ?blkend, ?wr, ?rd, ?treset, rfl, rfl⟩
  case nop => exact decode_of_opField (i := .nop) rfl
  case sample => exact decode_of_opField (i := .sample 0) rfl
  case blkend => exact decode_of_opField (i := .blkend 0) rfl
  case wr => exact decode_of_opField (i := .wr 0 0) rfl
  case rd => exact decode_of_opField (i := .rd 0) rfl
  case treset => exact decode_of_opField (i := .treset 0) rfl

/-- Settles O6: a line is refused exactly where the check of one of its operands fails; where none fails, each operand keeps
its literal's value. -/
theorem assembledOperandsKeepValues : Obligations.AssembledOperandsKeepValues := by
  refine ⟨fun l => ?refused, fun l is h => ?assembled, rfl, rfl, rfl, rfl, rfl, rfl, rfl, rfl, rfl, rfl, rfl, rfl, rfl,
    rfl, rfl, rfl, rfl, rfl, rfl, rfl, rfl, rfl, rfl, rfl, rfl, rfl, toNat_regIndex_dur⟩
  case refused =>
    rw [assembleLine_eq_none_iff]
    cases l with
    | nop => exact iff_of_false (by simp [AsmLine.wellFormed]) id
    | sample x => exact int16Ok_eq_false_iff
    | blkend now => exact u32Ok_eq_false_iff
    | wr r v => exact Bool.and_eq_false_iff.trans (or_congr regOk_eq_false_iff valueOk_eq_false_iff)
    | rd r => exact regOk_eq_false_iff
    | treset now => exact u32Ok_eq_false_iff
    | block now xs =>
      simp only [AsmLine.wellFormed, Bool.and_eq_false_iff, u32Ok_eq_false_iff, Bool.not_eq_false', List.isEmpty_iff,
        List.all_eq_false, Bool.not_eq_true, int16Ok_eq_false_iff, or_assoc]
    | tone now a => exact Bool.and_eq_false_iff.trans (or_congr u32Ok_eq_false_iff int16Ok_eq_false_iff)
    | silent now => exact u32Ok_eq_false_iff
    | clr mask => exact u32Ok_eq_false_iff
    | wrf r x => exact regOk_eq_false_iff
  case assembled =>
    obtain ⟨hwf, rfl⟩ := assembleLine_eq_some_iff.1 h
    cases l with
    | nop => rfl
    | sample x => exact ⟨_, toInt_ofInt_of_int16Ok hwf, rfl⟩
    | blkend now => exact ⟨_, toNat_ofNat_of_u32Ok hwf, rfl⟩
    | wr r v =>
      obtain ⟨hr, hv⟩ := Bool.and_eq_true_iff.1 hwf
      exact ⟨_, _, names_operandIndex hr, holds_operandValue hv, rfl⟩
    | rd r => exact ⟨_, names_operandIndex hwf, rfl⟩
    | treset now => exact ⟨_, toNat_ofNat_of_u32Ok hwf, rfl⟩
    | block now xs =>
      obtain ⟨htime, hxs⟩ := Bool.and_eq_true_iff.1 hwf
      obtain ⟨hnow, -⟩ := Bool.and_eq_true_iff.1 htime
      exact ⟨_, xs.map (BitVec.ofInt 16), toNat_ofNat_of_u32Ok hnow, map_toInt_map_ofInt hxs,
        by rw [expandLine, List.map_map]; rfl⟩
    | tone now a =>
      obtain ⟨hnow, ha⟩ := Bool.and_eq_true_iff.1 hwf
      exact ⟨_, _, toNat_ofNat_of_u32Ok hnow, toInt_ofInt_of_int16Ok ha, rfl⟩
    | silent now => exact ⟨_, toNat_ofNat_of_u32Ok hwf, rfl⟩
    | clr mask => exact ⟨_, toNat_ofNat_of_u32Ok hwf, rfl⟩
    | wrf r x => exact ⟨_, names_operandIndex hwf, rfl⟩

end Sys2Proof
end

section
/-! PROOFS. One step of the block (20_memory.md R58, 40_commands.md R90, 70_reset_and_hazards.md R220): what a step can do,
said once, and the induction on it that the invariants use; that no command looks at the waiting inputs, at the records of the
outputs or at the fault mark, by composing the stages of a pass; and so that a run executes its commands in order. -/
namespace Sys2Proof

open Machine

namespace Safety

/-! ## The state after a command -/

theorem exec_eq_next_after (i : Instr) (s : State) : exec i s = .next (after i s) := by cases i <;> rfl

@[simp] theorem after_nop (s : State) : after .nop s = s := rfl

@[simp] theorem after_sample (x : I16) (s : State) : after (.sample x) s = goertzelStep x s := rfl

@[simp] theorem after_blkend (now : U32) (s : State) : after (.blkend now) s = pipelinePass now s := rfl

@[simp] theorem after_wr (a : Byte) (v : U32) (s : State) : after (.wr a v) s = regWrite a v s := rfl

@[simp] theorem after_rd (a : Byte) (s : State) : after (.rd a) s = (regRead a s).2.respond (regRead a s).1 := rfl

@[simp] theorem after_treset (now : U32) (s : State) : after (.treset now) s = timingReset now s := rfl

end Safety

open Safety

namespace Machine

/-! ## What a step can do -/

theorem step_of_port_nil {s : State} (h : s.port = []) : step s = .next s := by
  simp only [step, takeInput, h]

theorem step_of_rst {s : State} {level : Bool} {rest : List PortInput} (h : s.port = .rst level :: rest) :
    step s = .next ({ s with port := rest }.resetInput level) := by
  simp only [step, takeInput, h]

theorem step_of_word_in_reset {s : State} {w : CommandWord} {rest : List PortInput} (hrst : s.rst = true)
    (h : s.port = .command w :: rest) : step s = .next { s with port := rest } := by
  simp only [step, takeInput, h, hrst, if_true]

theorem step_of_word {s : State} {w : CommandWord} {rest : List PortInput} (hrst : s.rst = false)
    (h : s.port = .command w :: rest) : step s = runWord w { s with port := rest } := by
  simp only [step, takeInput, h, hrst, Bool.false_eq_true, if_false]

theorem runWord_of_ok {w : CommandWord} {i : Instr} (h : decode w = .ok i) (s : State) :
    runWord w s = .next (after i s) := by
  rw [runWord, h]
  exact exec_eq_next_after i s

theorem runWord_of_error {w : CommandWord} {e : Reject} (h : decode w = .error e) (s : State) :
    runWord w s = .next (s.flag .cmd) := by
  rw [runWord, h]
  rfl

/-- Everything a step can do: hold the state, take a level of the reset input, drop a word, flag an illegal one, or execute a
command; all but the first take one input from the port. -/
theorem step_cases {s t : State} (h : step s = .next t) :
    t = s ∨ ∃ rest : List PortInput,
      (∃ level, t = { s with port := rest }.resetInput level) ∨ t = { s with port := rest } ∨
      t = { s with port := rest }.flag .cmd ∨ ∃ i, t = after i { s with port := rest } := by
  have answer {u : State} (hu : step s = .next u) : t = u := (Host.Outcome.next.inj (hu.symm.trans h)).symm
  match hport : s.port with
  | [] => exact .inl (answer (step_of_port_nil hport))
  | .rst level :: rest => exact .inr ⟨rest, .inl ⟨level, answer (step_of_rst hport)⟩⟩
  | .command w :: rest =>
    refine .inr ⟨rest, .inr ?_⟩
    rcases Bool.eq_false_or_eq_true s.rst with hrst | hrst
    · exact .inl (answer (step_of_word_in_reset hrst hport))
    · have hrun := step_of_word hrst hport
      match hdec : decode w with
      | .error e => exact .inr (.inl (answer (hrun.trans (runWord_of_error hdec _))))
      | .ok i => exact .inr (.inr ⟨i, answer (hrun.trans (runWord_of_ok hdec _))⟩)

/-- A property that taking an input, a reset, an illegal word and each command keep is kept by every step. -/
theorem step_preserves {P : State → Prop} (hport : ∀ s rest, P s → P { s with port := rest })
    (hreset : ∀ s level, P s → P (s.resetInput level)) (hflag : ∀ s, P s → P (s.flag .cmd))
    (hafter : ∀ i s, P s → P (after i s)) {s t : State} (hs : P s) (h : step s = .next t) : P t := by
  obtain rfl | ⟨rest, ⟨level, rfl⟩ | rfl | rfl | ⟨i, rfl⟩⟩ := step_cases h
  · exact hs
  · exact hreset _ level (hport s rest hs)
  · exact hport s rest hs
  · exact hflag _ (hport s rest hs)
  · exact hafter i _ (hport s rest hs)

/-! ## Inputs, records and the fault mark -/

/-- What no command looks at: the inputs, the fault mark and the records of the outputs. -/
structure Records where
  port : List PortInput
  rst : Bool
  faultMark : Bool
  events : List CharEvent
  setGains : List U32
  responses : List U32

/-- The records of a state. -/
def State.records (s : State) : Records := ⟨s.port, s.rst, s.faultMark, s.events, s.setGains, s.responses⟩

/-- The state with other records. -/
def State.withRecords (s : State) (r : Records) : State :=
  { s with port := r.port, rst := r.rst, faultMark := r.faultMark, events := r.events, setGains := r.setGains,
           responses := r.responses }

/-- What a command adds to the records: perhaps the mark, and outputs. -/
structure Recorded where
  mark : Bool
  events : List CharEvent
  setGains : List U32
  responses : List U32

/-- The records with an addition. -/
def Records.add (r : Records) (d : Recorded) : Records :=
  { r with faultMark := r.faultMark || d.mark, events := r.events ++ d.events, setGains := r.setGains ++ d.setGains,
           responses := r.responses ++ d.responses }

/-- Two additions one after the other. -/
def Recorded.append (d e : Recorded) : Recorded :=
  ⟨d.mark || e.mark, d.events ++ e.events, d.setGains ++ e.setGains, d.responses ++ e.responses⟩

/-- Nothing added. -/
def Recorded.none : Recorded := ⟨false, [], [], []⟩

@[simp] theorem Records.add_none (r : Records) : r.add .none = r := by
  simp [Records.add, Recorded.none]

theorem Records.add_append (r : Records) (d e : Recorded) : r.add (d.append e) = (r.add d).add e := by
  simp [Records.add, Recorded.append, Bool.or_assoc]

@[simp] theorem State.withRecords_records (s : State) : s.withRecords s.records = s := rfl

@[simp] theorem State.records_withRecords (s : State) (r : Records) : (s.withRecords r).records = r := rfl

@[simp] theorem State.withRecords_withRecords (s : State) (r r' : Records) :
    (s.withRecords r).withRecords r' = s.withRecords r' := rfl

/-- `f` looks at no record, adds the same to every one, and leaves the parameters. -/
def IgnoresRecords (f : State → State) : Prop :=
  ∀ s, (f s).cfg = s.cfg ∧ ∃ d : Recorded, ∀ r, f (s.withRecords r) = (f s).withRecords (r.add d)

theorem IgnoresRecords.comp {f g : State → State} (hg : IgnoresRecords g) (hf : IgnoresRecords f) :
    IgnoresRecords fun s => g (f s) := by
  intro s
  obtain ⟨hcfg, d, hd⟩ := hf s
  obtain ⟨hcfg', e, he⟩ := hg (f s)
  exact ⟨hcfg'.trans hcfg, d.append e, fun r => by simp only [hd, he, Records.add_append]⟩

/-- A choice by a test that looks at no record. -/
theorem IgnoresRecords.ite {c : State → Prop} [DecidablePred c] {f g : State → State}
    (hc : ∀ s r, c (s.withRecords r) ↔ c s) (hf : IgnoresRecords f) (hg : IgnoresRecords g) :
    IgnoresRecords fun s => if c s then f s else g s := by
  intro s
  dsimp only
  simp only [hc]
  by_cases h : c s
  · simpa only [if_pos h] using hf s
  · simpa only [if_neg h] using hg s

/-- An update that writes no record and reads none. -/
theorem IgnoresRecords.of_writes_none {f : State → State} (hcfg : ∀ s, (f s).cfg = s.cfg)
    (hf : ∀ s r, f (s.withRecords r) = (f s).withRecords r) : IgnoresRecords f :=
  fun s => ⟨hcfg s, .none, fun r => by rw [hf, Records.add_none]⟩

theorem IgnoresRecords.id : IgnoresRecords fun s => s := .of_writes_none (fun _ => rfl) fun _ _ => rfl

theorem State.flag_ignoresRecords (e : ErrorBit) : IgnoresRecords (State.flag · e) := by
  intro s
  refine ⟨State.flag_cfg s e, ⟨true, [], [], []⟩, fun r => ?_⟩
  cases e <;> simp [State.flag, State.withRecords, Records.add]

/-! ### The stages of a pass -/

theorem goertzelFinish_ignoresRecords : IgnoresRecords goertzelFinish := by
  have hflag : IgnoresRecords fun s => if isFinite (magSquared s.q1 s.q2 s.coeff) then s else s.flag .num :=
    .ite (fun _ _ => Iff.rfl) .id (State.flag_ignoresRecords .num)
  intro s
  obtain ⟨hcfg, d, hd⟩ := hflag s
  exact ⟨hcfg, d, fun r => congrArg (fun t : State =>
    { t with mag := magOf (magSquared s.q1 s.q2 s.coeff), q1 := posZero, q2 := posZero, scnt := 0 }) (hd r)⟩

theorem thresholdUpdate_ignoresRecords : IgnoresRecords thresholdUpdate := .of_writes_none (fun _ => rfl) fun _ _ => rfl

theorem compareThreshold_ignoresRecords : IgnoresRecords compareThreshold :=
  .of_writes_none (fun _ => rfl) fun _ _ => rfl

theorem rawTransition_ignoresRecords (now : U32) : IgnoresRecords (rawTransition now) :=
  .ite (fun _ _ => Iff.rfl) (.of_writes_none (fun _ => rfl) fun _ _ => rfl) .id

theorem commitFilter_ignoresRecords (now : U32) : IgnoresRecords (commitFilter now) :=
  .ite (fun _ _ => Iff.rfl) (.of_writes_none (fun _ => rfl) fun _ _ => rfl) .id

theorem frontEnd_ignoresRecords (now : U32) : IgnoresRecords (frontEnd now) :=
  (commitFilter_ignoresRecords now).comp <| (rawTransition_ignoresRecords now).comp <|
    compareThreshold_ignoresRecords.comp <| thresholdUpdate_ignoresRecords.comp goertzelFinish_ignoresRecords

/-- A flush adds the character that the buffer spells. -/
theorem flush_ignoresRecords (now : U32) : IgnoresRecords (flush now) := by
  intro s
  refine ⟨by rw [flush_eq], ⟨false, flushedEvents now s, [], []⟩, fun r => ?_⟩
  simp only [flush_eq, State.withRecords, Records.add, Bool.or_false, List.append_nil]
  rfl

theorem space_ignoresRecords (now : U32) : IgnoresRecords (space now) := by
  refine .ite (fun _ _ => Iff.rfl) .id fun s => ⟨rfl, ⟨false, [⟨0x20, now, []⟩], [], []⟩, fun r => ?_⟩
  simp [State.emitChar, State.withRecords, Records.add]

theorem classifyGap_ignoresRecords (now l : U32) : IgnoresRecords (classifyGap now l) :=
  .ite (fun _ _ => Iff.rfl) ((space_ignoresRecords now).comp (flush_ignoresRecords now))
    (.ite (fun _ _ => Iff.rfl) (flush_ignoresRecords now) .id)

theorem risingEdge_ignoresRecords (now : U32) : IgnoresRecords (risingEdge now) := by
  intro s
  exact classifyGap_ignoresRecords now (now - s.lowstart)
    { s with stallDone := false, lowdur := now - s.lowstart, highstart := now }

theorem appendSymbol_ignoresRecords (sym : Symbol) (h : U32) : IgnoresRecords (appendSymbol sym h) :=
  .ite (fun _ _ => Iff.rfl) (.of_writes_none (fun _ => rfl) fun _ _ => rfl) (.of_writes_none (fun _ => rfl) fun _ _ => rfl)

theorem nbsUpdate_ignoresRecords : IgnoresRecords nbsUpdate :=
  .ite (fun _ _ => Iff.rfl) (.of_writes_none (fun _ => rfl) fun _ _ => rfl) .id

theorem speedUpdate_ignoresRecords (sym : Symbol) (h : U32) : IgnoresRecords (speedUpdate sym h) :=
  .ite (fun _ _ => Iff.rfl) (nbsUpdate_ignoresRecords.comp (.of_writes_none (fun _ => rfl) fun _ _ => rfl)) .id

/-- The mark's class depends on the unit only. -/
theorem classifyMark_ignoresRecords (h : U32) : IgnoresRecords (classifyMark h) := by
  intro s
  match hm : markSymbol s.unit.toNat h.toNat with
  | none =>
    refine ⟨by rw [classifyMark_of_none hm], .none, fun r => ?_⟩
    rw [classifyMark_of_none hm, Records.add_none]
    exact classifyMark_of_none (s := s.withRecords r) hm
  | some sym =>
    have hclass : ∀ t : State, t.unit = s.unit → classifyMark h t = speedUpdate sym h (appendSymbol sym h t) :=
      fun t ht => by rw [classifyMark, ht, hm]
    obtain ⟨hcfg, d, hd⟩ := (speedUpdate_ignoresRecords sym h).comp (appendSymbol_ignoresRecords sym h) s
    rw [hclass s rfl]
    exact ⟨hcfg, d, fun r => (hclass (s.withRecords r) rfl).trans (hd r)⟩

theorem fallingEdge_ignoresRecords (now : U32) : IgnoresRecords (fallingEdge now) := by
  intro s
  exact classifyMark_ignoresRecords (now - s.highstart) (updateUnit (now - s.highstart)
    { s with stallDone := false, highdur := now - s.highstart, lowstart := now })

theorem stallGuard_ignoresRecords (now : U32) : IgnoresRecords (stallGuard now) := by
  refine .ite (fun _ _ => Iff.rfl) ?_ .id
  exact IgnoresRecords.comp (g := fun s => { s with stallDone := true })
    (.of_writes_none (fun _ => rfl) fun _ _ => rfl) (flush_ignoresRecords now)

theorem processEdge_ignoresRecords (now : U32) : IgnoresRecords (processEdge now) := by
  have htaken : IgnoresRecords fun s => { s with prevFilt := s.filt } := .of_writes_none (fun _ => rfl) fun _ _ => rfl
  have hedge : processEdge now = fun s => if s.filt = s.prevFilt then { s with prevFilt := s.filt }
      else if s.filt = .present then risingEdge now { s with prevFilt := s.filt }
      else fallingEdge now { s with prevFilt := s.filt } := by
    funext s
    cases hf : s.filt <;> simp [processEdge, hf]
  rw [hedge]
  exact .ite (fun _ _ => Iff.rfl) htaken (.ite (fun _ _ => Iff.rfl) ((risingEdge_ignoresRecords now).comp htaken)
    ((fallingEdge_ignoresRecords now).comp htaken))

theorem classifyUnlessScanning_ignoresRecords (now : U32) : IgnoresRecords (classifyUnlessScanning now) :=
  .ite (fun _ _ => Iff.rfl) (.of_writes_none (fun _ => rfl) fun _ _ => rfl)
    ((stallGuard_ignoresRecords now).comp (processEdge_ignoresRecords now))

theorem markLoud_ignoresRecords (now : U32) : IgnoresRecords (markLoud now) :=
  .ite (fun _ _ => Iff.rfl) (.of_writes_none (fun _ => rfl) fun _ _ => rfl) .id

theorem loudnessAverage_ignoresRecords : IgnoresRecords loudnessAverage := .of_writes_none (fun _ => rfl) fun _ _ => rfl

/-- Setting the gain adds one SetGain. -/
theorem setGain_ignoresRecords (g : U32) : IgnoresRecords fun s => { s.emitSetGain g with gain := g, lcnt := 0 } := by
  refine fun s => ⟨rfl, ⟨false, [], [g], []⟩, fun r => ?_⟩
  simp [State.emitSetGain, State.withRecords, Records.add]

theorem bandCorrection_ignoresRecords (now : U32) : IgnoresRecords (bandCorrection now) := by
  have hchoice : IgnoresRecords fun s => if bandGain now s ≠ s.gain
      then { (markLoud now s).emitSetGain (bandGain now s) with gain := bandGain now s, lcnt := 0 }
      else markLoud now s := by
    refine .ite (fun _ _ => Iff.rfl) (fun s => ?_) (markLoud_ignoresRecords now)
    exact (setGain_ignoresRecords (bandGain now s)).comp (markLoud_ignoresRecords now) s
  exact .ite (fun _ _ => Iff.rfl) hchoice .id

theorem pipelinePass_ignoresRecords (now : U32) : IgnoresRecords (pipelinePass now) := by
  have hgain : IgnoresRecords (gainLoop now) := (bandCorrection_ignoresRecords now).comp loudnessAverage_ignoresRecords
  have hclass : IgnoresRecords fun s => classifyUnlessScanning now (frontEnd now s) :=
    (classifyUnlessScanning_ignoresRecords now).comp (frontEnd_ignoresRecords now)
  exact hgain.comp hclass

/-! ### The register accesses -/

theorem writeReg_ignoresRecords (r : Reg) (v : U32) : IgnoresRecords (writeReg r v) := by
  have hkeep {f : State → State} (hcfg : ∀ s, (f s).cfg = s.cfg)
      (hf : ∀ s q, f (s.withRecords q) = (f s).withRecords q) := IgnoresRecords.of_writes_none hcfg hf
  cases r with
  | ctrl | status | react | hold | sf10 => exact hkeep (fun _ => rfl) fun _ _ => rfl
  | coeff =>
    refine .ite (fun _ _ => Iff.rfl) (State.flag_ignoresRecords .cmd) ?_
    exact IgnoresRecords.comp (g := fun s => { s with coeff := fclamp coeffMin coeffMax v })
      (hkeep (fun _ => rfl) fun _ _ => rfl) (.ite (fun _ _ => Iff.rfl) (State.flag_ignoresRecords .haz) .id)
  | tfloor =>
    exact .ite (fun _ _ => Iff.rfl) (State.flag_ignoresRecords .cmd) (hkeep (fun _ => rfl) fun _ _ => rfl)
  | nbmin =>
    exact .ite (fun _ _ => Iff.rfl) (hkeep (fun _ => rfl) fun _ _ => rfl) (hkeep (fun _ => rfl) fun _ _ => rfl)
  | gain => exact fun s => setGain_ignoresRecords (clampU32 s.cfg.gainMin s.cfg.gainMax v) s
  | _ => exact .id

theorem regWrite_ignoresRecords (a : Byte) (v : U32) : IgnoresRecords (regWrite a v) := by
  unfold regWrite
  cases regOfIndex a with
  | none => exact State.flag_ignoresRecords .cmd
  | some r => exact writeReg_ignoresRecords r v

theorem respond_ignoresRecords (v : U32) : IgnoresRecords (State.respond · v) := by
  refine fun s => ⟨rfl, ⟨false, [], [], [v]⟩, fun r => ?_⟩
  simp [State.respond, State.withRecords, Records.add]

theorem readReg_withRecords (r : Reg) (s : State) (q : Records) : readReg r (s.withRecords q) = readReg r s := by
  cases r <;> rfl

theorem after_rd_ignoresRecords (a : Byte) : IgnoresRecords (after (.rd a)) := by
  intro s
  cases h : regOfIndex a with
  | none =>
    have hrd : after (.rd a) = fun s => (s.flag .cmd).respond 0 :=
      funext fun s => Host.Outcome.next.inj ((exec_eq_next_after _ s).symm.trans (exec_rd_unmapped h s))
    rw [hrd]
    exact (respond_ignoresRecords 0).comp (State.flag_ignoresRecords .cmd) s
  | some r =>
    have hrd : after (.rd a) = fun s => s.respond (readReg r s) :=
      funext fun s => Host.Outcome.next.inj ((exec_eq_next_after _ s).symm.trans (exec_rd_mapped h s))
    rw [hrd]
    obtain ⟨hcfg, d, hd⟩ := respond_ignoresRecords (readReg r s) s
    exact ⟨hcfg, d, fun q => by simpa only [readReg_withRecords] using hd q⟩

theorem after_ignoresRecords (i : Instr) : IgnoresRecords (after i) := by
  cases i with
  | nop => exact .id
  | sample x => exact .of_writes_none (fun _ => rfl) fun _ _ => rfl
  | blkend now => exact pipelinePass_ignoresRecords now
  | wr a v => exact regWrite_ignoresRecords a v
  | rd a => exact after_rd_ignoresRecords a
  | treset now => exact .of_writes_none (fun _ => rfl) fun _ _ => rfl

/-- A command adds to the records and to nothing else of them. -/
theorem after_records (i : Instr) (s : State) :
    (after i s).cfg = s.cfg ∧ ∃ d, (after i s).records = s.records.add d ∧
      ∀ r, after i (s.withRecords r) = (after i s).withRecords (r.add d) := by
  obtain ⟨hcfg, d, hd⟩ := after_ignoresRecords i s
  exact ⟨hcfg, d, congrArg State.records (hd s.records), hd⟩

theorem after_cfg (i : Instr) (s : State) : (after i s).cfg = s.cfg := (after_ignoresRecords i s).1

/-- A command leaves the inputs where they are and is the same whatever they are. -/
theorem after_withPort (i : Instr) (s : State) (p : List PortInput) :
    after i { s with port := p } = { after i s with port := p } := by
  obtain ⟨-, d, hrec, hd⟩ := after_records i s
  have h := hd { s.records with port := p }
  have hsame : (after i s).withRecords (s.records.add d) = after i s := by rw [← hrec]; rfl
  exact h.trans (congrArg (fun t : State => { t with port := p }) hsame)

theorem after_rst (i : Instr) (s : State) : (after i s).rst = s.rst := by
  obtain ⟨-, d, hrec, -⟩ := after_records i s
  exact congrArg Records.rst hrec

/-! ## Runs -/

/-- A word of the port that encodes a command is that command's effect, and the other inputs wait. -/
theorem step_of_encoded {s : State} {i : Instr} {rest : List PortInput} (hrst : s.rst = false)
    (h : s.port = .command (encode i) :: rest) : step s = .next { after i s with port := rest } := by
  rw [step_of_word hrst h, runWord_of_ok (decode_encode i), after_withPort]

theorem run_succ_of_step {s t : State} (h : step s = .next t) (k : Nat) : core.run (k + 1) s = core.run k t := by
  have hstep : core.step s = .next t := h
  simp only [Host.Core.run, hstep]

/-- The words of a run are executed in their order. -/
theorem run_encoded (is : List Instr) (s : State) (hrst : s.rst = false) :
    core.run is.length { s with port := is.map fun i => .command (encode i) } =
      .next { afterAll is s with port := [] } := by
  induction is generalizing s with
  | nil => rfl
  | cons i is ih =>
    have hstep := step_of_encoded (s := { s with port := (i :: is).map fun i => .command (encode i) }) hrst rfl
    rw [after_withPort] at hstep
    exact (run_succ_of_step hstep is.length).trans (ih (after i s) ((after_rst i s).trans hrst))

theorem afterAll_withPort (is : List Instr) (s : State) (p : List PortInput) :
    afterAll is { s with port := p } = { afterAll is s with port := p } := by
  induction is generalizing s with
  | nil => rfl
  | cons i is ih => rw [afterAll, after_withPort, ih, afterAll]

/-! ## The obligations -/

/-- Settles O11: by induction on the commands, each step being the first one's effect with the others still waiting. -/
theorem runExecutesCommandsInOrder : Obligations.RunExecutesCommandsInOrder := fun is s hrst =>
  (run_encoded is s hrst).trans (congrArg _ (afterAll_withPort is s []).symm)

/-- Settles O12: every stage ignores the records, and so does their composition. -/
theorem commandsIgnoreInputsAndRecords : Obligations.CommandsIgnoreInputsAndRecords := by
  intro i s
  obtain ⟨hcfg, d, hrec, hd⟩ := after_records i s
  have field {α : Type} (f : Records → α) := congrArg f hrec
  refine ⟨after i s, d.mark, d.events, d.setGains, d.responses, exec_eq_next_after i s, field Records.port,
    field Records.rst, hcfg, field Records.faultMark, field Records.events, field Records.setGains,
    field Records.responses, fun p b m e g r => ?_⟩
  exact (exec_eq_next_after i _).trans (congrArg _ (hd ⟨p, b, m, e, g, r⟩))

/-- Settles O13: neither a command nor a reset writes the parameters. -/
theorem stepKeepsParameters : Obligations.StepKeepsParameters := fun s _ =>
  step_preserves (P := fun t => t.cfg = s.cfg) (fun _ _ h => h) (fun _ _ h => h)
    (fun _ h => (State.flag_cfg _ _).trans h) (fun i _ h => (after_cfg i _).trans h) rfl

/-- Settles O7: the port's word is taken and run. -/
theorem stepRunsDecodedCommand : Obligations.StepRunsDecodedCommand := fun _ w rest i hrst hport hdec => by
  rw [step_of_word hrst hport, runWord_of_ok hdec, exec_eq_next_after]

/-- Settles O8: a word with such an OP decodes to nothing, and then ERR_CMD is flagged. -/
theorem stepIllegalWordFlagsOnly : Obligations.StepIllegalWordFlagsOnly := by
  intro s w rest hrst hport hop
  obtain ⟨i, hdec, hi⟩ | ⟨-, hdec⟩ := decode_legal_or_illegal w
  · have := opcode_le_five i
    rw [hi] at this
    omega
  · rw [step_of_word hrst hport, runWord_of_error hdec]
    rfl

/-- Settles O9: an empty port gives nothing to execute. -/
theorem stepHoldsStateWithoutInput : Obligations.StepHoldsStateWithoutInput := fun _ => step_of_port_nil

/-- Settles O10: a level of the reset input is `resetInput`; a word offered in reset is dropped. -/
theorem resetInputRestoresResetState : Obligations.ResetInputRestoresResetState :=
  ⟨fun _ _ _ hport => step_of_rst hport, fun _ _ _ hrst hport => step_of_word_in_reset hrst hport⟩

end Machine
end Sys2Proof
end

section
/-! PROOFS. Who writes which register and which condition bit (10_state.md R22 to R38; 60_exceptions.md R201 to R208;
40_commands.md R91 to R96): what a WR can do, register by register, and from that what each command writes. -/
namespace Sys2Proof.Machine

open Safety

/-! ## The index of a register (10_state.md R21) -/

theorem regTable_nodup : regTable.Nodup := by decide

/-- A mapped index is the index of its register. -/
theorem eq_regIndex_of_regOfIndex {a : Byte} {r : Reg} (h : regOfIndex a = some r) : a = regIndex r := by
  obtain ⟨hlt, rfl⟩ := List.getElem?_eq_some_iff.1 h
  rw [regIndex, regTable_nodup.idxOf_getElem, BitVec.ofNat_toNat, BitVec.setWidth_eq]

theorem regIndex_eq_iff {r q : Reg} : regIndex r = regIndex q ↔ r = q := by
  refine ⟨fun h => ?_, congrArg regIndex⟩
  have hindex (r : Reg) : regTable[(regIndex r).toNat]? = some r := by
    cases r with
    | dur i => revert i; decide
    | _ => rfl
  exact Option.some.inj ((hindex r).symm.trans ((congrArg (fun a : Byte => regTable[a.toNat]?) h).trans (hindex q)))

/-! ## What a WR to a mapped register can do -/

/-- `RegWritten v s r t`: a WR of `v` to the register `r` takes `s` to `t` (40_commands.md R94). -/
inductive RegWritten (v : U32) (s : State) : Reg → State → Prop
  | ctrl : RegWritten v s .ctrl (s.writeCtrl v)
  | status : RegWritten v s .status (s.clearSticky v)
  | coeffRejected (hn : isNaN v = true) : RegWritten v s .coeff (s.flag .cmd)
  | coeffStored (hn : isNaN v = false) : RegWritten v s .coeff { s with
      coeff := fclamp coeffMin coeffMax v, errHaz := s.errHaz || decide (s.scnt ≠ 0),
      faultMark := s.faultMark || decide (s.scnt ≠ 0) }
  | tfloorRejected (hv : isNaN v = true ∨ v = posInf) : RegWritten v s .tfloor (s.flag .cmd)
  | tfloorStored (hn : isNaN v = false) (hi : v ≠ posInf) : RegWritten v s .tfloor
      { s with tfloor := floorValue v, thr := raisedThreshold s.thr (floorValue v) }
  | react : RegWritten v s .react { s with react := clampU32 1 255 v }
  | hold : RegWritten v s .hold { s with hold := clampU32 0 s.cfg.holdMax v }
  | sf10 : RegWritten v s .sf10 { s with sf10 := clampU32 10 100 v }
  | nbminRaises (h : s.nbs.toNat < (clampU32 1 s.cfg.nbMax v).toNat) : RegWritten v s .nbmin { s with
      nbmin := clampU32 1 s.cfg.nbMax v, nbs := clampU32 1 s.cfg.nbMax v, nbsChg := true }
  | nbminKeeps (h : (clampU32 1 s.cfg.nbMax v).toNat ≤ s.nbs.toNat) :
      RegWritten v s .nbmin { s with nbmin := clampU32 1 s.cfg.nbMax v }
  | gain : RegWritten v s .gain { s with
      gain := clampU32 s.cfg.gainMin s.cfg.gainMax v, lcnt := 0,
      setGains := s.setGains ++ [clampU32 s.cfg.gainMin s.cfg.gainMax v] }
  | readOnly {r : Reg} (hr : r ∈ readOnlyRegs) : RegWritten v s r s

theorem regWritten_writeReg (r : Reg) (v : U32) (s : State) : RegWritten v s r (writeReg r v s) := by
  cases r with
  | ctrl => exact .ctrl
  | status => exact .status
  | coeff =>
    rw [writeReg]
    cases hn : isNaN v with
    | true => rw [writeCoeff_of_isNaN hn]; exact .coeffRejected hn
    | false => rw [writeCoeff_of_not_isNaN hn]; exact .coeffStored hn
  | tfloor =>
    rw [writeReg]
    by_cases hv : isNaN v = true ∨ v = posInf
    · rw [writeTfloor_of_rejected hv]; exact .tfloorRejected hv
    · obtain ⟨hn, hi⟩ := not_or.1 hv
      rw [Bool.not_eq_true] at hn
      rw [writeTfloor_of_stored hn hi]; exact .tfloorStored hn hi
  | react => exact .react
  | hold => exact .hold
  | sf10 => exact .sf10
  | nbmin =>
    rw [writeReg]
    rcases Nat.lt_or_ge s.nbs.toNat (clampU32 1 s.cfg.nbMax v).toNat with h | h
    · rw [writeNbmin_of_lt h]; exact .nbminRaises h
    · rw [writeNbmin_of_le h]; exact .nbminKeeps h
  | gain => exact .gain
  | dur i => exact .readOnly (by revert i; decide)
  | _ => exact .readOnly (by decide)

/-! ## The commands by their effect -/

/-- What a WR does: an unmapped index flags ERR_CMD, a mapped one writes its register. -/
theorem after_wr_cases (a : Byte) (v : U32) (s : State) :
    (0x25 ≤ a.toNat ∧ after (.wr a v) s = s.flag .cmd) ∨
    ∃ r, a = regIndex r ∧ RegWritten v s r (after (.wr a v) s) := by
  rw [after_wr, regWrite]
  match h : regOfIndex a with
  | none => exact .inl ⟨regOfIndex_eq_none_iff.1 h, rfl⟩
  | some r => exact .inr ⟨r, eq_regIndex_of_regOfIndex h, regWritten_writeReg r v s⟩

/-- What a RD does: an unmapped index flags ERR_CMD and responds 0, a mapped one responds its register's image. -/
theorem after_rd_cases (a : Byte) (s : State) :
    (0x25 ≤ a.toNat ∧ after (.rd a) s = (s.flag .cmd).respond 0) ∨
    ∃ r, a = regIndex r ∧ after (.rd a) s = s.respond (readReg r s) := by
  rw [after_rd, regRead]
  match h : regOfIndex a with
  | none => exact .inl ⟨regOfIndex_eq_none_iff.1 h, rfl⟩
  | some r => exact .inr ⟨r, eq_regIndex_of_regOfIndex h, rfl⟩

theorem toNat_regIndex_lt (r : Reg) : (regIndex r).toNat < 0x25 := by
  cases r with
  | dur i => revert i; decide
  | _ => decide

/-! ## The registers a WR writes -/

section
variable {v : U32} {s t : State} {r : Reg}

/-- A WR writes the registers of its index; TFLOOR's also raises THR, NBMIN's raises NBS, GAIN's restarts the average and emits
(10_state.md R22 to R30). -/
theorem RegWritten.frame (h : RegWritten v s r t) :
    (r ≠ .ctrl → t.scan = s.scan ∧ t.autotune = s.autotune ∧ t.diag = s.diag) ∧
    (r ≠ .coeff → t.coeff = s.coeff) ∧ (r ≠ .tfloor → t.tfloor = s.tfloor ∧ t.thr = s.thr) ∧
    (r ≠ .react → t.react = s.react) ∧ (r ≠ .hold → t.hold = s.hold) ∧ (r ≠ .sf10 → t.sf10 = s.sf10) ∧
    (r ≠ .nbmin → t.nbmin = s.nbmin ∧ t.nbs = s.nbs) ∧
    (r ≠ .gain → t.gain = s.gain ∧ t.lcnt = s.lcnt ∧ t.setGains = s.setGains) := by
  cases h <;> simp

/-- The data path, the timing record, the symbol decoder, the events and the responses are no register a WR writes. -/
theorem RegWritten.keeps (h : RegWritten v s r t) :
    (t.q1 = s.q1 ∧ t.q2 = s.q2 ∧ t.scnt = s.scnt) ∧
    (t.unit = s.unit ∧ t.highdur = s.highdur ∧ t.lowdur = s.lowdur ∧ t.highstart = s.highstart ∧
      t.lowstart = s.lowstart ∧ t.prevFilt = s.prevFilt ∧ t.stallDone = s.stallDone) ∧
    (t.mag = s.mag ∧ t.loud = s.loud ∧ t.wpm = s.wpm ∧ t.code = s.code ∧ t.dur = s.dur ∧ t.raw = s.raw ∧
      t.filt = s.filt ∧ t.prevRaw = s.prevRaw ∧ t.lastSpace = s.lastSpace ∧ t.loudSeen = s.loudSeen ∧
      t.lastrawt = s.lastrawt ∧ t.lastloudt = s.lastloudt ∧ t.events = s.events) ∧ t.responses = s.responses := by
  cases h <;> simp

/-- ERR_CMD after a WR: cleared by a STATUS write, set by a rejected COEFF or TFLOOR value (60_exceptions.md R201, R208). -/
theorem RegWritten.errCmd_iff (h : RegWritten v s r t) : t.errCmd = true ↔
    (s.errCmd = true ∧ ¬(r = .status ∧ v.getLsbD 3 = true)) ∨ (r = .coeff ∧ isNaN v = true) ∨
    (r = .tfloor ∧ (isNaN v = true ∨ v = posInf)) := by
  cases h with
  | readOnly hr =>
    have hne : r ≠ .status ∧ r ≠ .coeff ∧ r ≠ .tfloor := by
      refine ⟨?_, ?_, ?_⟩ <;> rintro rfl <;> exact absurd hr (by decide)
    simp [hne]
  | _ => simp [*]

/-- ERR_HAZ after a WR: cleared by a STATUS write, set by a COEFF value stored with a block open (60_exceptions.md R202). -/
theorem RegWritten.errHaz_iff (h : RegWritten v s r t) : t.errHaz = true ↔
    (s.errHaz = true ∧ ¬(r = .status ∧ v.getLsbD 4 = true)) ∨ (r = .coeff ∧ isNaN v = false ∧ s.scnt ≠ 0) := by
  cases h with
  | readOnly hr =>
    have hne : r ≠ .status ∧ r ≠ .coeff := by refine ⟨?_, ?_⟩ <;> rintro rfl <;> exact absurd hr (by decide)
    simp [hne]
  | _ => simp [*]

/-- ERR_NUM after a WR: only a STATUS write clears it, and none sets it (60_exceptions.md R203, R208). -/
theorem RegWritten.errNum_iff (h : RegWritten v s r t) : t.errNum = true ↔
    s.errNum = true ∧ ¬(r = .status ∧ v.getLsbD 5 = true) := by
  cases h with
  | readOnly hr =>
    have hne : r ≠ .status := by rintro rfl; exact absurd hr (by decide)
    simp [hne]
  | _ => simp

end

/-! ## The condition bits of a pass -/

theorem not_isFinite_iff {x : F32} : isFinite x = false ↔ isNaN x = true ∨ x = 0x7F800000 ∨ x = 0xFF800000 := by
  constructor
  case mp =>
    intro h
    simp only [isFinite, isNaN, decide_eq_false_iff_not, decide_eq_true_eq, not_lt] at h ⊢
    refine h.lt_or_eq.imp id fun hinf => ?_
    rw [← fpack_msb_fmag x, ← hinf]
    cases x.msb with
    | false => exact .inl rfl
    | true => exact .inr rfl
  case mpr =>
    rintro (hn | rfl | rfl)
    · exact Bool.eq_false_iff.2 fun hf => Bool.false_ne_true ((isNaN_of_isFinite hf).symm.trans hn)
    · decide
    · decide

/-- The frame of BLKEND, for what the host writes. -/
theorem pipelinePass_keeps_host (now : U32) (s : State) :
    (pipelinePass now s).cfg = s.cfg ∧ (pipelinePass now s).errCmd = s.errCmd ∧
    (pipelinePass now s).errHaz = s.errHaz ∧ (pipelinePass now s).coeff = s.coeff ∧
    (pipelinePass now s).tfloor = s.tfloor ∧ (pipelinePass now s).react = s.react ∧
    (pipelinePass now s).hold = s.hold ∧ (pipelinePass now s).sf10 = s.sf10 ∧ (pipelinePass now s).nbmin = s.nbmin := by
  obtain ⟨_, _, _, _, _, _, _, _, _, _, _, _, _, _, _, _, _, _, _, _, _, _, _, _, _, _, h⟩ := pipelinePass_frame now s
  rw [h]
  exact ⟨rfl, rfl, rfl, rfl, rfl, rfl, rfl, rfl, rfl⟩

/-- A pass leaves ERR_CMD and ERR_HAZ, and sets ERR_NUM exactly where the squared magnitude is not finite. -/
theorem pipelinePass_errors (now : U32) (s : State) :
    (pipelinePass now s).errCmd = s.errCmd ∧ (pipelinePass now s).errHaz = s.errHaz ∧
    ((pipelinePass now s).errNum = true ↔ s.errNum = true ∨ isFinite (magSquared s.q1 s.q2 s.coeff) = false) := by
  obtain ⟨-, hcmd, hhaz, -⟩ := pipelinePass_keeps_host now s
  refine ⟨hcmd, hhaz, ?_⟩
  cases h : isFinite (magSquared s.q1 s.q2 s.coeff) with
  | true =>
    obtain ⟨hnum, -⟩ := pipelinePass_errNum_of_isFinite now h
    simp [hnum]
  | false =>
    obtain ⟨hnum, -⟩ := pipelinePass_errNum_of_not_isFinite now h
    simp [hnum]

/-! ## The obligations -/

/-- Settles O20: what a RD, a WR and a pass do to the three bits; the other commands leave them. -/
theorem errorBitsFollowTheirCauses : Obligations.ErrorBitsFollowTheirCauses := by
  intro i s
  refine ⟨after i s, exec_eq_next_after i s, ?_⟩
  intro kept m2
  have hstatus (r : Reg) : regIndex r = 1#8 ↔ r = .status := regIndex_eq_iff (q := .status)
  have hcoeff (r : Reg) : regIndex r = 2#8 ↔ r = .coeff := regIndex_eq_iff (q := .coeff)
  have htfloor (r : Reg) : regIndex r = 3#8 ↔ r = .tfloor := regIndex_eq_iff (q := .tfloor)
  cases i with
  | nop => simp [kept]
  | sample x => simp [kept, goertzelStep]
  | treset now => simp [kept, timingReset]
  | blkend now =>
    obtain ⟨hcmd, hhaz, hnum⟩ := pipelinePass_errors now s
    have hcause : isFinite m2 = false ↔ isNaN m2 = true ∨ m2 = 0x7F800000 ∨ m2 = 0xFF800000 := not_isFinite_iff
    have hm2 : magSquared s.q1 s.q2 s.coeff = m2 := rfl
    simp [kept, hcmd, hhaz, hnum, hm2, hcause]
  | rd a =>
    obtain ⟨ha, h⟩ | ⟨r, rfl, h⟩ := after_rd_cases a s
    · simp [h, kept, ha]
    · have hr := toNat_regIndex_lt r
      simp [h, kept, hr]
  | wr a v =>
    obtain ⟨ha, h⟩ | ⟨r, rfl, h⟩ := after_wr_cases a v s
    · have hne : a ≠ 1#8 ∧ a ≠ 2#8 ∧ a ≠ 3#8 := by
        refine ⟨?_, ?_, ?_⟩ <;> rintro rfl <;> exact absurd ha (by decide)
      obtain ⟨h1, h2, h3⟩ := hne
      simp [h, kept, ha, h1, h2, h3]
    · have hr := toNat_regIndex_lt r
      rw [h.errCmd_iff, h.errHaz_iff, h.errNum_iff]
      simp [kept, hstatus, hcoeff, htfloor, Nat.not_le.2 hr, posInf]

/-- Settles O19: an error bit that appears has one of its causes, and the command of that cause sets nothing else. -/
theorem simultaneousConditions : Obligations.SimultaneousConditions := by
  intro i s
  refine ⟨after i s, exec_eq_next_after i s, ?_⟩
  cases i with
  | nop | sample x | treset now => simp_all [goertzelStep, timingReset]
  | blkend now =>
    obtain ⟨hcmd, hhaz, -⟩ := pipelinePass_errors now s
    simp_all
  | rd a => obtain ⟨-, h⟩ | ⟨r, -, h⟩ := after_rd_cases a s <;> simp_all
  | wr a v =>
    obtain ⟨-, h⟩ | ⟨r, -, h⟩ := after_wr_cases a v s
    · simp_all
    · generalize after (.wr a v) s = t at h ⊢
      cases h <;> simp_all

/-- Settles O21: a WR writes the registers of its index, and the frames of the other commands name what they write. -/
theorem registersChangeOnlyByTheirWriters : Obligations.RegistersChangeOnlyByTheirWriters := by
  intro i s
  refine ⟨after i s, exec_eq_next_after i s, ?_⟩
  intro written pass sampled treset
  cases i with
  | nop => simp
  | sample x => simp [goertzelStep, sampled]
  | treset now => simp [timingReset, treset]
  | blkend now =>
    obtain ⟨_, _, _, _, _, _, _, _, _, _, _, _, _, _, _, _, _, _, _, _, _, _, _, _, _, _, h⟩ := pipelinePass_frame now s
    simp [h, pass]
  | rd a => obtain ⟨-, h⟩ | ⟨r, -, h⟩ := after_rd_cases a s <;> simp [h]
  | wr a v =>
    obtain ⟨-, h⟩ | ⟨r, rfl, h⟩ := after_wr_cases a v s
    · simp [h]
    · have hwritten {q : Reg} (hq : ¬written (regIndex q)) : r ≠ q := by
        rintro rfl
        exact hq ⟨v, rfl⟩
      obtain ⟨hctrl, hcoeff, htfloor, hreact, hhold, hsf10, hnbmin, hgain⟩ := h.frame
      obtain ⟨hfilter, htiming, hpath, hresponses⟩ := h.keeps
      exact ⟨fun hw => hctrl (hwritten hw), fun hw => hcoeff (hwritten hw), fun hw => (htfloor (hwritten hw)).1,
        fun hw => hreact (hwritten hw), fun hw => hhold (hwritten hw), fun hw => hsf10 (hwritten hw),
        fun hw => (hnbmin (hwritten hw)).1, fun hw => hgain (hwritten (not_or.1 hw).1),
        fun hw => (htfloor (hwritten (not_or.1 hw).1)).2, fun hw => (hnbmin (hwritten (not_or.1 hw).1)).2,
        fun _ => hfilter, fun _ => htiming, fun _ => hpath, fun _ => hresponses⟩

/-- Settles O22: of the causes of ERR_HAZ only a COEFF write with a block open is a command, and it breaks R229's duty. -/
theorem dutifulHostCausesNoHazard : Obligations.DutifulHostCausesNoHazard := by
  intro is
  induction is with
  | nil => exact fun _ _ hs _ => hs
  | cons i is ih =>
    intro d s hs hd
    obtain ⟨hkeeps, hrest⟩ := Bool.and_eq_true_iff.1 hd
    refine ih (d.next s i) (after i s) ?_ hrest
    obtain ⟨t, hexec, -, hhaz, -⟩ := errorBitsFollowTheirCauses i s
    cases (exec_eq_next_after i s).symm.trans hexec
    rw [Bool.eq_false_iff]
    intro hset
    obtain ⟨hold, -⟩ | ⟨v, rfl, -, hopen⟩ := hhaz.1 hset
    · exact Bool.false_ne_true (hs.symm.trans hold)
    · have hclosed : s.scnt = 0 := by simpa [keepsDuty, show regIndex .coeff = 2#8 from rfl] using hkeeps
      exact hopen hclosed

/-- Settles O27: the CTRL and STATUS writes, the cleared bits by cases on the data bit. -/
theorem wrControlAndStatus : Obligations.WrControlAndStatus := by
  refine fun v s => ⟨exec_wr_mapped (r := .ctrl) rfl v s, (exec_wr_mapped (r := .status) rfl v s).trans ?_⟩
  have hclear (b c : Bool) : (b && !c) = if c then false else b := by cases c <;> simp
  rw [writeReg, State.clearSticky]
  simp only [hclear]

/-- Settles O34: the pass is its stages, and the frame of the pass leaves the rest. -/
theorem blkendRunsStagesInOrder : Obligations.BlkendRunsStagesInOrder := by
  intro now s a b c d t
  refine ⟨rfl, ?_⟩
  have ht : t = pipelinePass now s := rfl
  obtain ⟨_, _, _, _, _, _, _, _, _, _, _, _, _, _, _, _, _, _, _, _, _, _, _, _, _, _, h⟩ := pipelinePass_frame now s
  rw [ht, h]
  exact ⟨rfl, rfl, rfl, rfl, rfl, rfl, rfl, rfl, rfl, rfl, rfl, rfl, rfl, rfl, rfl⟩

end Sys2Proof.Machine
end

section
/-! PROOFS. The symbol decoder in a pass (44_symbol_decoder.md R160 to R167): everything a pass can do to the buffer, the
events and the speed estimate, said once; the events a pass emits; and the exact lookup of a character. -/
namespace Sys2Proof.Machine

/-! ## What a pass can do to the decoder and the speed estimate -/

/-- `PassOutcome now s t`: what the pass of timestamp `now` from `s` to `t` made of the buffer, the events, LAST_SPACE, WPM and
NBS. A pass has at most one edge, and the stall guard fires only in one without (43_timing_classifier.md R130, R139). -/
inductive PassOutcome (now : U32) (s t : State) : Prop
  /-- No edge, noise, or a gap inside a letter. -/
  | kept (hcode : t.code = s.code) (hdur : t.dur = s.dur) (hevents : t.events = s.events)
      (hspace : t.lastSpace = s.lastSpace) (hwpm : t.wpm = s.wpm) (hnbs : t.nbs = s.nbs)
  /-- A letter boundary, or the stall guard. -/
  | flushed (hcode : t.code = []) (hdur : t.dur = []) (hevents : t.events = s.events ++ flushedEvents now s)
      (hspace : t.lastSpace = (s.lastSpace && decide (flushedEvents now s = []))) (hwpm : t.wpm = s.wpm)
      (hnbs : t.nbs = s.nbs)
  /-- A word boundary. -/
  | wordEnded (hcode : t.code = []) (hdur : t.dur = [])
      (hevents : t.events = s.events ++ flushedEvents now s ++
        if flushedEvents now s = [] ∧ s.lastSpace = true then [] else [⟨0x20, now, []⟩])
      (hspace : t.lastSpace = true) (hwpm : t.wpm = s.wpm) (hnbs : t.nbs = s.nbs)
  /-- A mark that is a dot or a dash. -/
  | symbol (sym : Symbol) (h : U32) (happ : AppendedTo sym h s t) (hevents : t.events = s.events)
      (hspace : t.lastSpace = s.lastSpace) (hsped : SpedFrom s t (unitMillis sym h))

section
variable {now : U32} {s t : State}

theorem PassLeaves.outcome_of_scan (hpass : PassLeaves now s t) (hscan : s.scan = true) : PassOutcome now s t := by
  have field {α : Type} (f : State → α) := congrArg f (hpass.of_scan hscan).symm
  exact .kept (field State.code) (field State.dur) (field State.events) (field State.lastSpace) (field State.wpm)
    (field State.nbs)

theorem PassLeaves.outcome_of_level (hpass : PassLeaves now s t) (hscan : s.scan = false) (hfilt : t.filt = s.prevFilt) :
    PassOutcome now s t := by
  have hguard := hpass.of_level hscan hfilt
  by_cases hstall : stalled now (s.withFrontEndOf t) = true
  · rw [stallGuard_of_stalled hstall, flush_eq] at hguard
    have field {α : Type} (f : State → α) := congrArg f hguard.symm
    exact .flushed (field State.code) (field State.dur) (field State.events) (field State.lastSpace) (field State.wpm)
      (field State.nbs)
  · rw [stallGuard_of_not_stalled hstall] at hguard
    have field {α : Type} (f : State → α) := congrArg f hguard.symm
    exact .kept (field State.code) (field State.dur) (field State.events) (field State.lastSpace) (field State.wpm)
      (field State.nbs)

theorem PassLeaves.outcome_of_rise (hpass : PassLeaves now s t) (hscan : s.scan = false) (hprev : s.prevFilt = .absent)
    (hfilt : t.filt = .present) : PassOutcome now s t := by
  have hrise := hpass.of_rise hscan hprev hfilt
  rw [risingEdge] at hrise
  generalize hu : { s.edgeTaken t with
    stallDone := false, lowdur := now - (s.edgeTaken t).lowstart, highstart := now } = u at hrise
  by_cases hword : u.sf10.toNat * u.unit.toNat * lacktime10 u.wpm.toNat ≤ 100 * (now - (s.edgeTaken t).lowstart).toNat
  · rw [classifyGap_of_word hword, wordBoundary_eq] at hrise
    subst hu
    have field {α : Type} (f : State → α) := congrArg f hrise.symm
    exact .wordEnded (field State.code) (field State.dur) (field State.events) (field State.lastSpace) (field State.wpm)
      (field State.nbs)
  · by_cases hletter : 2 * u.unit.toNat * lacktime10 u.wpm.toNat ≤ 10 * (now - (s.edgeTaken t).lowstart).toNat ∧
        10 * (now - (s.edgeTaken t).lowstart).toNat < 5 * u.unit.toNat * lacktime10 u.wpm.toNat
    · rw [classifyGap_of_letter hword hletter, flush_eq] at hrise
      subst hu
      have field {α : Type} (f : State → α) := congrArg f hrise.symm
      exact .flushed (field State.code) (field State.dur) (field State.events) (field State.lastSpace) (field State.wpm)
        (field State.nbs)
    · rw [classifyGap_of_neither hword hletter] at hrise
      subst hu
      have field {α : Type} (f : State → α) := congrArg f hrise.symm
      exact .kept (field State.code) (field State.dur) (field State.events) (field State.lastSpace) (field State.wpm)
        (field State.nbs)

theorem PassLeaves.outcome_of_fall (hpass : PassLeaves now s t) (hscan : s.scan = false) (hprev : s.prevFilt = .present)
    (hfilt : t.filt = .absent) : PassOutcome now s t := by
  obtain ⟨_, _, _, _, _, hframe⟩ := fallingEdge_frame now (s.edgeTaken t)
  have hfall := hpass.of_fall hscan hprev hfilt
  rw [hframe] at hfall
  have field {α : Type} (f : State → α) := congrArg f hfall.symm
  cases hm : markSymbol t.unit.toNat t.highdur.toNat with
  | none =>
    obtain ⟨hcode, hdur, hwpm, hnbs, -⟩ := hpass.fall_noise hscan hprev hfilt hm
    exact .kept hcode hdur (field State.events) (field State.lastSpace) hwpm hnbs
  | some sym =>
    obtain ⟨happ, hsped⟩ := hpass.fall_symbol hscan hprev hfilt hm
    exact .symbol sym t.highdur happ (field State.events) (field State.lastSpace) hsped

theorem PassLeaves.outcome (hpass : PassLeaves now s t) : PassOutcome now s t := by
  rcases Bool.eq_false_or_eq_true s.scan with hscan | hscan
  · exact hpass.outcome_of_scan hscan
  · match hprev : s.prevFilt, hfilt : t.filt with
    | .absent, .present => exact hpass.outcome_of_rise hscan hprev hfilt
    | .present, .absent => exact hpass.outcome_of_fall hscan hprev hfilt
    | .present, .present | .absent, .absent => exact hpass.outcome_of_level hscan (hfilt.trans hprev.symm)

end

theorem pipelinePass_outcome (now : U32) (s : State) : PassOutcome now s (pipelinePass now s) :=
  (pipelinePass_passLeaves now s).outcome

/-! ## The events of a flush (R163, R166) -/

/-- A flush emits nothing, or the character of the buffer with its durations where CTRL.DIAG asks for them. -/
theorem flushedEvents_cases (now : U32) (s : State) :
    flushedEvents now s = [] ∨ ∃ c, decodeBuffer s = some c ∧
      flushedEvents now s = [⟨c, now, if s.diag then s.dur else []⟩] := by
  unfold flushedEvents
  cases decodeBuffer s with
  | none => exact .inl rfl
  | some c => exact .inr ⟨c, rfl, rfl⟩

/-! ## The lookup (R164, R167) -/

/-- A lookup that finds a code finds it in an entry of that key. -/
theorem exists_entry_of_lutLookup {table : List LutEntry} {len sym : Nat} {c : Byte} (h : lutLookup table len sym = some c) :
    ∃ e ∈ table, e.len = len ∧ e.sym = sym ∧ e.code = c := by
  obtain ⟨e, hfind, rfl⟩ := Option.map_eq_some_iff.1 h
  have hkey : e.len = len ∧ e.sym = sym := by simpa using List.find?_some hfind
  exact ⟨e, List.mem_of_find?_eq_some hfind, hkey.1, hkey.2, rfl⟩

/-- Where no two entries have one key, an entry is found by its key. -/
theorem lutLookup_of_mem {table : List LutEntry} (hdistinct : lutKeysDistinct table = true) {e : LutEntry} (he : e ∈ table) :
    lutLookup table e.len e.sym = some e.code := by
  have hnodup : (table.map fun e => (e.len, e.sym)).Nodup := of_decide_eq_true hdistinct
  have hfound : lutLookup table e.len e.sym ≠ none := by
    simp only [lutLookup, ne_eq, Option.map_eq_none_iff, List.find?_eq_none]
    exact fun h => h e he (by simp)
  obtain ⟨c, hc⟩ := Option.ne_none_iff_exists'.1 hfound
  obtain ⟨e', he', hlen, hsym, rfl⟩ := exists_entry_of_lutLookup hc
  have hsame : e' = e := List.inj_on_of_nodup_map hnodup he' he (by rw [hlen, hsym])
  rw [hc, hsame]

theorem decodeBuffer_eq_some_iff {s : State} {c : Byte} : decodeBuffer s = some c ↔
    s.code ≠ [] ∧ lutLookup s.cfg.charLut s.code.length (symBits s.code) = some c := by
  rw [decodeBuffer]
  by_cases h : s.code = []
  · simp [h]
  · simp [h]

/-- Buffers of one length have different keys. -/
theorem symBits_injective {a b : List Symbol} (hlen : a.length = b.length) (hsym : symBits a = symBits b) : a = b := by
  refine List.ext_getElem hlen fun k ha hb => ?_
  have hbit := congrArg (Nat.testBit · k) hsym
  simp only [testBit_symBits, List.getElem?_eq_getElem ha, List.getElem?_eq_getElem hb, Option.some.injEq,
    decide_eq_decide] at hbit
  cases hx : a[k] with
  | dash => exact (hbit.1 hx).symm
  | dot =>
    cases hy : b[k] with
    | dot => rfl
    | dash => exact hx.symm.trans (hbit.2 hy)

/-! ## The obligations -/

/-- Settles O48: the table is searched by key, its keys are distinct, and bit `k` of SYM is symbol `k`. -/
theorem characterLookupIsExact : Obligations.CharacterLookupIsExact := by
  refine ⟨fun s c hdistinct => ?_, fun a b => symBits_injective, symBits_lt_two_pow_length⟩
  rw [decodeBuffer_eq_some_iff]
  refine and_congr_right fun _ => ⟨exists_entry_of_lutLookup, ?_⟩
  rintro ⟨e, he, hlen, hsym, rfl⟩
  rw [← hlen, ← hsym]
  exact lutLookup_of_mem hdistinct he

/-- Settles O49: by the outcome of the pass; a flush emits at most one character, and only a word boundary adds a space. -/
theorem passEmitsAtMostTwoEvents : Obligations.PassEmitsAtMostTwoEvents := by
  intro now s
  refine ⟨_, exec_blkend now s, ?_⟩
  have hdurs : (if s.diag then s.dur else []) = [] ∨ s.diag = true := by
    cases s.diag with
    | false => exact .inl rfl
    | true => exact .inr rfl
  cases pipelinePass_outcome now s with
  | kept _ _ hevents => exact .inl hevents
  | symbol _ _ _ hevents => exact .inl hevents
  | flushed _ _ hevents =>
    rw [hevents]
    obtain hnone | ⟨c, -, hchar⟩ := flushedEvents_cases now s
    · exact .inl (by rw [hnone, List.append_nil])
    · exact .inr (.inl ⟨c, _, by rw [hchar], hdurs⟩)
  | wordEnded _ _ hevents =>
    rw [hevents]
    obtain hnone | ⟨c, -, hchar⟩ := flushedEvents_cases now s
    · rw [hnone, List.append_nil]
      cases s.lastSpace with
      | true => exact .inl (by simp)
      | false => exact .inr (.inl ⟨0x20, [], by simp, .inl rfl⟩)
    · exact .inr (.inr ⟨c, _, by simp [hchar], hdurs⟩)

end Sys2Proof.Machine
end

section
/-! PROOFS. Rounding (00_scope.md R11): the values of the magnitude fields, their spacing, and that a rounded magnitude is the
nearest one, ties to even, with the infinity from the midpoint above the largest finite value on. -/
namespace Sys2Proof.Machine

/-! ## Magnitudes by significand and exponent -/

/-- A significand of 24 bits, or a smaller one in the lowest binade, times a power of two; a significand of 2^24 is the next
binade's least one. -/
theorem units_scaled {k s : Nat} (hlo : k = 0 ∨ 2 ^ 23 ≤ s) (hhi : s ≤ 2 ^ 24) : units (k * 2 ^ 23 + s) = s * 2 ^ k := by
  rcases hhi.lt_or_eq with hlt | rfl
  · by_cases hs : 2 ^ 23 ≤ s
    · exact units_mul_two_pow hs hlt k
    · obtain rfl := hlo.resolve_right hs
      rw [Nat.zero_mul, Nat.zero_add, pow_zero, Nat.mul_one]
      exact if_pos (not_le.1 hs)
  · have hfields : k * 2 ^ 23 + 2 ^ 24 = (k + 1) * 2 ^ 23 + 2 ^ 23 := by omega
    rw [hfields, units_mul_two_pow le_rfl (by decide), pow_succ]
    omega

/-- Every magnitude is a significand at an exponent. -/
theorem exists_scaled (m : Nat) : ∃ k s, m = k * 2 ^ 23 + s ∧ (k = 0 ∨ 2 ^ 23 ≤ s) ∧ s < 2 ^ 24 := by
  by_cases h : m < 2 ^ 24
  · exact ⟨0, m, by omega, .inl rfl, h⟩
  · exact ⟨m / 2 ^ 23 - 1, 2 ^ 23 + m % 2 ^ 23, by omega, .inr (by omega), by omega⟩

theorem units_zero : units 0 = 0 := rfl

theorem units_strictMono : StrictMono units := by
  refine strictMono_nat_of_lt_succ fun m => ?_
  obtain ⟨k, s, rfl, hlo, hhi⟩ := exists_scaled m
  rw [units_scaled hlo hhi.le, Nat.add_assoc, units_scaled (hlo.imp_right Nat.le_succ_of_le) hhi]
  exact Nat.mul_lt_mul_of_pos_right s.lt_succ_self (Nat.two_pow_pos k)

/-- From 2^23 * 2^k on, every value is a multiple of 2^k. -/
theorem two_pow_dvd_units_or_lt (k m : Nat) : 2 ^ k ∣ units m ∨ k ≠ 0 ∧ units m < 2 ^ 23 * 2 ^ k := by
  obtain ⟨e, s, rfl, hlo, hhi⟩ := exists_scaled m
  rw [units_scaled hlo hhi.le]
  rcases Nat.lt_or_ge e k with hek | hke
  · refine .inr ⟨Nat.ne_zero_of_lt hek, ?_⟩
    calc s * 2 ^ e < 2 ^ 24 * 2 ^ e := Nat.mul_lt_mul_of_pos_right hhi (Nat.two_pow_pos e)
      _ = 2 ^ 23 * 2 ^ (e + 1) := by rw [pow_succ 2 e]; omega
      _ ≤ 2 ^ 23 * 2 ^ k := Nat.mul_le_mul_left _ (Nat.pow_le_pow_right Nat.two_pos hek)
  · exact .inl (Dvd.dvd.mul_left (pow_dvd_pow 2 hke) s)

theorem excessBits_bounds (q : Nat) :
    q < 2 ^ 24 * 2 ^ excessBits q ∧ (excessBits q = 0 ∨ 2 ^ 23 * 2 ^ excessBits q ≤ q) := by
  by_cases h : q < 0x1000000
  · rw [excessBits, if_pos h]
    exact ⟨by omega, .inl rfl⟩
  · rw [excessBits, if_neg h]
    obtain ⟨hlo, hhi⟩ := (Nat.log2_eq_iff (n := q) (by omega)).1 rfl
    have hlog : 23 ≤ Nat.log2 q := by
      by_contra hlt
      have := hhi.trans_le (Nat.pow_le_pow_right Nat.two_pos (not_le.1 hlt))
      omega
    rw [← pow_add, ← pow_add, Nat.add_sub_cancel' hlog]
    exact ⟨hhi.trans_eq (by congr 1; omega), .inr hlo⟩

/-! ## The nearest integer -/

/-- The rounded quotient is at most half a unit away, and even where it is just that far. -/
theorem divNearestEven_spec (num : Nat) {den : Nat} (h : 0 < den) :
    2 * ((divNearestEven num den * den : Nat) - (num : Int)).natAbs ≤ den ∧
    (2 * ((divNearestEven num den * den : Nat) - (num : Int)).natAbs = den → divNearestEven num den % 2 = 0) := by
  have hdiv := Nat.div_add_mod num den
  have hmod := Nat.mod_lt num h
  unfold divNearestEven
  dsimp only
  generalize num / den = q at *
  generalize num % den = r at *
  subst hdiv
  split
  · rename_i hup
    have hsucc : (q + 1) * den = den * q + den := by ring
    rw [hsucc]
    generalize den * q = p
    omega
  · rename_i hdown
    rw [Nat.mul_comm q den]
    generalize den * q = p
    omega

/-- No other integer is nearer, and one as near is a neighbour. -/
theorem divNearestEven_nearest (num : Nat) {den : Nat} (h : 0 < den) (j : Nat) :
    ((divNearestEven num den * den : Nat) - (num : Int)).natAbs ≤ ((j * den : Nat) - (num : Int)).natAbs ∧
    (((divNearestEven num den * den : Nat) - (num : Int)).natAbs = ((j * den : Nat) - (num : Int)).natAbs →
      j ≠ divNearestEven num den → divNearestEven num den % 2 = 0 ∧ (divNearestEven num den + j) % 2 = 1 ∧
      (divNearestEven num den + j) * den = 2 * num) := by
  obtain ⟨hhalf, heven⟩ := divNearestEven_spec num h
  generalize divNearestEven num den = n at *
  rcases lt_trichotomy j n with hlt | rfl | hlt
  · obtain ⟨c, rfl⟩ := Nat.exists_eq_add_of_lt hlt
    have hn : (j + c + 1) * den = j * den + c * den + den := by ring
    have hsum : (j + c + 1 + j) * den = j * den + c * den + den + j * den := by ring
    have hc : c = 0 ∨ den ≤ c * den := (Nat.eq_zero_or_pos c).imp_right (Nat.le_mul_of_pos_left den)
    rw [hn] at hhalf heven ⊢
    rw [hsum]
    rcases hc with rfl | hc
    · rw [Nat.zero_mul] at hhalf heven ⊢
      generalize j * den = p at *
      omega
    · generalize j * den = p at *
      generalize c * den = d at *
      omega
  · simp
  · obtain ⟨c, rfl⟩ := Nat.exists_eq_add_of_lt hlt
    have hj : (n + c + 1) * den = n * den + c * den + den := by ring
    have hsum : (n + (n + c + 1)) * den = n * den + n * den + c * den + den := by ring
    have hc : c = 0 ∨ den ≤ c * den := (Nat.eq_zero_or_pos c).imp_right (Nat.le_mul_of_pos_left den)
    rw [hj, hsum]
    rcases hc with rfl | hc
    · rw [Nat.zero_mul]
      generalize n * den = p at *
      omega
    · generalize n * den = p at *
      generalize c * den = d at *
      omega

/-! ## The rounded magnitude -/

section
variable {num den : Nat}

/-- The significand that `num / den` is rounded to, at the exponent `excessBits (num / den)`. -/
def significand (num den : Nat) : Nat := divNearestEven num (den * 2 ^ excessBits (num / den))

theorem roundMag_eq_min (num den : Nat) :
    roundMag num den = min (excessBits (num / den) * 2 ^ 23 + significand num den) infMag := rfl

/-- The exponent is the one at which the quotient has 24 bits, or 0. -/
theorem quotient_bounds (h : 0 < den) : num < 2 ^ 24 * (den * 2 ^ excessBits (num / den)) ∧
    (excessBits (num / den) = 0 ∨ 2 ^ 23 * (den * 2 ^ excessBits (num / den)) ≤ num) := by
  obtain ⟨hhi, hlo⟩ := excessBits_bounds (num / den)
  rw [Nat.mul_left_comm, Nat.mul_left_comm (2 ^ 23)]
  exact ⟨(Nat.div_lt_iff_lt_mul h).1 hhi |>.trans_eq (Nat.mul_comm _ _),
    hlo.imp_right fun hle => (Nat.mul_comm _ _).trans_le ((Nat.le_div_iff_mul_le h).1 hle)⟩

theorem significand_bounds (h : 0 < den) :
    significand num den ≤ 2 ^ 24 ∧ (excessBits (num / den) = 0 ∨ 2 ^ 23 ≤ significand num den) := by
  obtain ⟨hhi, hlo⟩ := quotient_bounds (num := num) h
  have hpos : 0 < den * 2 ^ excessBits (num / den) := Nat.mul_pos h (Nat.two_pow_pos _)
  obtain ⟨hhalf, -⟩ := divNearestEven_spec num hpos
  rw [significand]
  generalize den * 2 ^ excessBits (num / den) = d at *
  generalize divNearestEven num d = n at *
  refine ⟨?_, hlo.imp_right fun hle => ?_⟩
  · by_contra hn
    have hmul : (2 ^ 24 + 1) * d ≤ n * d := Nat.mul_le_mul_right d (not_le.1 hn)
    generalize n * d = p at *
    omega
  · by_contra hn
    have hmul : (n + 1) * d ≤ 2 ^ 23 * d := Nat.mul_le_mul_right d (not_le.1 hn)
    rw [Nat.succ_mul] at hmul
    generalize n * d = p at *
    omega

theorem roundMag_of_finite (hfin : roundMag num den < infMag) :
    roundMag num den = excessBits (num / den) * 2 ^ 23 + significand num den := by
  rw [roundMag_eq_min] at hfin ⊢
  exact Nat.min_eq_left (by omega)

theorem units_roundMag (h : 0 < den) (hfin : roundMag num den < infMag) :
    units (roundMag num den) = significand num den * 2 ^ excessBits (num / den) := by
  obtain ⟨hhi, hlo⟩ := significand_bounds (num := num) h
  rw [roundMag_of_finite hfin, units_scaled hlo hhi]

/-- What a tie between the rounded magnitude and another one is: the two are neighbours in steps of 2^k, `num / den` is their
midpoint, and the rounded one is even. -/
structure TieAt (num den m : Nat) : Prop where
  exists_neighbour : ∃ s j, units (roundMag num den) = s * 2 ^ excessBits (num / den) ∧
    units m = j * 2 ^ excessBits (num / den) ∧ (s + j) % 2 = 1 ∧
    (s + j) * (den * 2 ^ excessBits (num / den)) = 2 * num
  even : roundMag num den % 2 = 0

/-- No magnitude is nearer than the rounded one, and one as near makes a tie. -/
theorem roundMag_nearest (h : 0 < den) (hfin : roundMag num den < infMag) (m : Nat) :
    ((units (roundMag num den) * den : Nat) - (num : Int)).natAbs ≤ ((units m * den : Nat) - (num : Int)).natAbs ∧
    (((units (roundMag num den) * den : Nat) - (num : Int)).natAbs = ((units m * den : Nat) - (num : Int)).natAbs →
      m ≠ roundMag num den → TieAt num den m) := by
  have hpos : 0 < den * 2 ^ excessBits (num / den) := Nat.mul_pos h (Nat.two_pow_pos _)
  have hunits := units_roundMag h hfin
  have hscale (j : Nat) : j * 2 ^ excessBits (num / den) * den = j * (den * 2 ^ excessBits (num / den)) := by ring
  rcases two_pow_dvd_units_or_lt (excessBits (num / den)) m with ⟨j, hj⟩ | ⟨hk, hlt⟩
  case inl =>
    rw [Nat.mul_comm] at hj
    obtain ⟨hnear, htie⟩ := divNearestEven_nearest num hpos j
    rw [hunits, hj, hscale, hscale]
    refine ⟨hnear, fun heq hne => ?_⟩
    have hjs : j ≠ significand num den := by
      rintro rfl
      exact hne (units_strictMono.injective (hj.trans hunits.symm))
    obtain ⟨heven, hodd, hmid⟩ := htie heq hjs
    refine ⟨⟨significand num den, j, hunits, hj, hodd, hmid⟩, ?_⟩
    change significand num den % 2 = 0 at heven
    rw [roundMag_of_finite hfin]
    omega
  case inr =>
    have hlow : 2 ^ 23 * (den * 2 ^ excessBits (num / den)) ≤ num := (quotient_bounds h).2.resolve_left hk
    obtain ⟨hnear, -⟩ := divNearestEven_nearest num hpos (2 ^ 23)
    have hfar : units m * den < 2 ^ 23 * (den * 2 ^ excessBits (num / den)) := by
      rw [← hscale]
      exact Nat.mul_lt_mul_of_pos_right hlt h
    rw [hunits, hscale]
    change ((significand num den * _ : Nat) - (num : Int)).natAbs ≤ _ at hnear
    omega

/-! ## Overflow -/

/-- A rounded quotient reaches an even number from half below it on. -/
theorem le_divNearestEven_iff {c : Nat} (hc : c % 2 = 0) (h : 0 < den) :
    c ≤ divNearestEven num den ↔ 2 * (c * den) ≤ 2 * num + den := by
  obtain ⟨hhalf, heven⟩ := divNearestEven_spec num h
  generalize divNearestEven num den = n at *
  rcases Nat.lt_or_ge n c with hlt | hle
  · refine iff_of_false (not_le.2 hlt) fun hmid => ?_
    obtain ⟨d, rfl⟩ := Nat.exists_eq_add_of_lt hlt
    have hexp : (n + d + 1) * den = n * den + d * den + den := by ring
    rw [hexp] at hmid
    have hd : d = 0 ∨ den ≤ d * den := (Nat.eq_zero_or_pos d).imp_right (Nat.le_mul_of_pos_left den)
    rcases hd with rfl | hd
    · rw [Nat.zero_mul] at hmid
      generalize n * den = p at *
      omega
    · generalize n * den = p at *
      generalize d * den = e at *
      omega
  · refine iff_of_true hle ?_
    have hmul : c * den ≤ n * den := Nat.mul_le_mul_right den hle
    generalize n * den = p at *
    generalize c * den = e at *
    omega

/-- The infinity, exactly from the midpoint above the largest finite value on. -/
theorem roundMag_eq_inf_iff (h : 0 < den) : roundMag num den = infMag ↔ den * ((2 ^ 25 - 1) * 2 ^ 252) ≤ num := by
  obtain ⟨hhi, hlo⟩ := quotient_bounds (num := num) h
  obtain ⟨hsig, hsig'⟩ := significand_bounds (num := num) h
  have hround : roundMag num den = infMag ↔ infMag ≤ excessBits (num / den) * 2 ^ 23 + significand num den := by
    rw [roundMag_eq_min, min_eq_right_iff]
  obtain ⟨d, hd⟩ : ∃ d, d = den * 2 ^ 252 := ⟨_, rfl⟩
  have hlimit : den * ((2 ^ 25 - 1) * 2 ^ 252) = (2 ^ 25 - 1) * d := by rw [hd, Nat.mul_left_comm]
  have hpow {e f : Nat} (hef : e ≤ f) : den * 2 ^ e ≤ den * 2 ^ f :=
    Nat.mul_le_mul_left den (Nat.pow_le_pow_right Nat.two_pos hef)
  rw [hround, hlimit]
  rcases lt_trichotomy (excessBits (num / den)) 253 with hk | hk | hk
  · have hsmall : den * 2 ^ excessBits (num / den) ≤ d := hd ▸ hpow (Nat.le_of_lt_succ hk)
    unfold infMag
    omega
  · have hdouble : den * 2 ^ 253 = 2 * d := by rw [hd, pow_succ 2 252]; ring
    have hup := le_divNearestEven_iff (num := num) (c := 2 ^ 24) (by decide) (Nat.mul_pos h (Nat.two_pow_pos 253))
    rw [significand, hk] at hsig ⊢
    rw [hdouble] at hup hsig ⊢
    unfold infMag
    omega
  · have hquad : den * 2 ^ 254 = 4 * d := by rw [hd, pow_add 2 252 2]; ring
    have hlarge : 4 * d ≤ den * 2 ^ excessBits (num / den) := hquad ▸ hpow hk
    unfold infMag
    omega

end

/-! ## The obligation -/

/-- Settles O53: the range, the limit of the infinity, and the nearest magnitude, where a tie is even. -/
theorem roundingIsNearestEven : Obligations.RoundingIsNearestEven := by
  refine fun num den h => ⟨roundMag_le_inf num den, roundMag_eq_inf_iff h, fun hfin m _ => ?_⟩
  obtain ⟨hnear, htie⟩ := roundMag_nearest h hfin m
  exact ⟨hnear, fun heq hne => (htie heq hne).even⟩

end Sys2Proof.Machine
end

section
/-! PROOFS. The binary32 operations (00_scope.md R11): what each is on finite operands, a rounded exact result with a sign; that
such a pattern is nearest to the exact result, ties to even; and the integer square root behind `fsqrt`. -/
namespace Sys2Proof.Machine

/-! ## Signed values -/

/-- A natural number with a sign. -/
def signed (neg : Bool) (n : Nat) : Int := if neg then -(n : Int) else n

theorem fval_eq_signed (x : F32) : fval x = signed x.msb (units (fmag x)) := rfl

@[simp] theorem natAbs_signed (neg : Bool) (n : Nat) : (signed neg n).natAbs = n := by
  cases neg <;> simp [signed]

@[simp] theorem signed_zero (neg : Bool) : signed neg 0 = 0 := by cases neg <;> rfl

theorem signed_mul_signed (p q : Bool) (m n : Nat) : signed p m * signed q n = signed (p != q) (m * n) := by
  cases p <;> cases q <;> simp [signed]

theorem signed_mul_natCast (p : Bool) (m n : Nat) : signed p m * (n : Int) = signed p (m * n) := by
  cases p <;> simp [signed]

theorem signed_lt_zero_natAbs (n : Int) : signed (decide (n < 0)) n.natAbs = n := by
  unfold signed
  by_cases h : n < 0
  · rw [if_pos (decide_eq_true h)]; omega
  · rw [if_neg (by simpa using h)]; omega

/-- The distance of two numbers of one sign, and of two of different signs. -/
theorem natAbs_signed_sub (p q : Bool) (m n : Nat) :
    (signed p m - signed q n).natAbs = if p = q then ((m : Int) - n).natAbs else m + n := by
  cases p <;> cases q <;> simp only [signed, if_true, if_false, Bool.false_eq_true, reduceCtorEq] <;> omega

/-! ## The packed rounded result is nearest -/

theorem isFinite_iff {x : F32} : isFinite x = true ↔ fmag x < infMag := decide_eq_true_iff

theorem isFinite_fpack_roundMag_iff {neg : Bool} {num den : Nat} :
    isFinite (fpack neg (roundMag num den)) = true ↔ roundMag num den < infMag := by
  rw [isFinite_iff, fmag_fpack (roundMag_lt_sign num den)]

theorem fval_fpack_roundMag (neg : Bool) (num den : Nat) :
    fval (fpack neg (roundMag num den)) = signed neg (units (roundMag num den)) :=
  fval_fpack (roundMag_lt_sign num den)

theorem getLsbD_zero_fpack {neg : Bool} {m : Nat} (h : m < signBit) (heven : m % 2 = 0) :
    (fpack neg m).getLsbD 0 = false := by
  rw [BitVec.getLsbD, toNat_fpack h, Nat.testBit_zero, decide_eq_false_iff_not]
  have hsign : signBit % 2 = 0 := rfl
  cases neg <;> simp only [if_true, if_false, Bool.false_eq_true] <;> omega

/-- `v` is a binary32 nearest the number `num / den`: no finite pattern is nearer, and where one of another value is as near,
the last bit of `v` is 0. -/
def NearestEven (v : F32) (num : Int) (den : Nat) : Prop :=
  ∀ x : F32, isFinite x = true →
    (fval v * den - num).natAbs ≤ (fval x * den - num).natAbs ∧
    ((fval v * den - num).natAbs = (fval x * den - num).natAbs → fval x ≠ fval v → v.getLsbD 0 = false)

/-- A rounded magnitude with a sign is nearest among the patterns of both signs. -/
theorem nearestEven_fpack_roundMag (neg : Bool) {num den : Nat} (h : 0 < den)
    (hfin : isFinite (fpack neg (roundMag num den)) = true) :
    NearestEven (fpack neg (roundMag num den)) (signed neg num) den := by
  intro x _
  rw [isFinite_fpack_roundMag_iff] at hfin
  have heven (he : roundMag num den % 2 = 0) := getLsbD_zero_fpack (neg := neg) (roundMag_lt_sign num den) he
  obtain ⟨hzero, htie⟩ := roundMag_nearest h hfin 0
  rw [units_zero, Nat.zero_mul] at hzero htie
  rw [fval_fpack_roundMag, fval_eq_signed x, signed_mul_natCast, signed_mul_natCast, natAbs_signed_sub, natAbs_signed_sub,
    if_pos rfl]
  by_cases hsign : x.msb = neg
  · rw [if_pos hsign, hsign]
    obtain ⟨hnear, htie⟩ := roundMag_nearest h hfin (fmag x)
    refine ⟨hnear, fun heq hne => heven (htie heq ?_).even⟩
    rintro hmag
    exact hne (by rw [hmag])
  · rw [if_neg hsign]
    refine ⟨by omega, fun heq _ => heven ?_⟩
    by_cases hr : roundMag num den = 0
    · rw [hr]
    · exact (htie (by omega) (Ne.symm hr)).even

/-! ## The operations on finite operands -/

section
variable {a b : F32}

theorem classes_of_isFinite (h : isFinite a = true) : isNaN a = false ∧ isInf a = false :=
  ⟨isNaN_of_isFinite h, decide_eq_false (isFinite_iff.1 h).ne⟩

/-- A sum is rounded from the exact one; its sign is that of the exact one, or of both operands where that is zero. -/
theorem fadd_of_isFinite (ha : isFinite a = true) (hb : isFinite b = true) : fadd a b =
    fpack (if fval a + fval b = 0 then a.msb && b.msb else decide (fval a + fval b < 0))
      (roundMag (fval a + fval b).natAbs 1) := by
  obtain ⟨hna, hia⟩ := classes_of_isFinite ha
  obtain ⟨hnb, hib⟩ := classes_of_isFinite hb
  rw [fadd, fsum]
  simp only [hna, hnb, hia, hib, Bool.or_self, Bool.false_eq_true, if_false, Option.getD_some]
  by_cases h : fval a + fval b = 0
  · rw [if_pos h, if_pos h, h]
    rfl
  · rw [if_neg h, if_neg h]

theorem signed_fadd_natAbs (n : Int) (neg : Bool) :
    signed (if n = 0 then neg else decide (n < 0)) n.natAbs = n := by
  by_cases h : n = 0
  · rw [h]; exact signed_zero _
  · rw [if_neg h, signed_lt_zero_natAbs]

theorem fmul_of_isFinite (ha : isFinite a = true) (hb : isFinite b = true) : fmul a b =
    fpack (a.msb != b.msb) (roundMag (units (fmag a) * units (fmag b)) (2 ^ 149)) := by
  obtain ⟨hna, hia⟩ := classes_of_isFinite ha
  obtain ⟨hnb, hib⟩ := classes_of_isFinite hb
  rw [fmul, fprod]
  simp only [hna, hnb, hia, hib, Bool.or_self, Bool.false_eq_true, if_false, Option.getD_some]

theorem fdiv_of_isFinite (ha : isFinite a = true) (hb : isFinite b = true) (hz : isZero b = false) : fdiv a b =
    fpack (a.msb != b.msb) (roundMag (units (fmag a) * 2 ^ 149) (units (fmag b))) := by
  obtain ⟨hna, hia⟩ := classes_of_isFinite ha
  obtain ⟨hnb, hib⟩ := classes_of_isFinite hb
  rw [fdiv, fquot]
  simp only [hna, hnb, hia, hib, hz, Bool.or_self, Bool.false_eq_true, if_false, Option.getD_some]

theorem units_pos_of_not_isZero (h : isZero b = false) : 0 < units (fmag b) := by
  rw [← units_zero]
  exact units_strictMono (Nat.pos_of_ne_zero (of_decide_eq_false h))

/-! ### Negation -/

theorem msb_fneg (x : F32) : (fneg x).msb = !x.msb := by
  rw [fneg, BitVec.msb_xor, show (BitVec.ofNat 32 signBit).msb = true from by decide, Bool.xor_true]

theorem fmag_fneg (x : F32) : fmag (fneg x) = fmag x := by
  have hlow (y : F32) : fmag y = (y.setWidth 31).toNat := (BitVec.toNat_setWidth 31 y).symm
  have hsign : (BitVec.ofNat 32 signBit).setWidth 31 = 0#31 := by decide
  rw [hlow, hlow, fneg, BitVec.setWidth_xor, hsign, BitVec.xor_zero]

theorem fval_fneg (x : F32) : fval (fneg x) = -fval x := by
  rw [fval_eq_signed, fval_eq_signed, msb_fneg, fmag_fneg]
  cases x.msb <;> simp [signed]

theorem isFinite_fneg (x : F32) : isFinite (fneg x) = isFinite x := by rw [isFinite, isFinite, fmag_fneg]

/-- A difference is the sum with the negated operand, except that a NaN is its own. -/
theorem fsub_eq_fadd_fneg (h : isNaN (fsub a b) = false) : fsub a b = fadd a (fneg b) := by
  rw [fsub] at h ⊢
  rw [fadd]
  cases hsum : fsum a (fneg b) with
  | none => rw [hsum, Option.getD_none, isNaN_nanPattern] at h; cases h
  | some c => rfl

/-! ### Square root -/

/-- One bit of the root at a time keeps the root between the bounds. -/
theorem isqrtFrom_bounds (x n r : Nat) (hlo : r * r ≤ x) (hhi : x < (r + 2 ^ n) * (r + 2 ^ n)) :
    isqrtFrom x n r * isqrtFrom x n r ≤ x ∧ x < (isqrtFrom x n r + 1) * (isqrtFrom x n r + 1) := by
  induction n generalizing r with
  | zero => exact ⟨hlo, hhi⟩
  | succ n ih =>
    have hdouble : r + 2 ^ (n + 1) = r + 2 ^ n + 2 ^ n := by rw [pow_succ]; omega
    rw [hdouble] at hhi
    rw [isqrtFrom]
    split
    · rename_i hbit
      exact ih _ hbit hhi
    · rename_i hbit
      exact ih _ hlo (not_le.1 hbit)

theorem isqrt_bounds {x : Nat} (h : x < 2 ^ 428) : isqrt x * isqrt x ≤ x ∧ x < (isqrt x + 1) * (isqrt x + 1) :=
  isqrtFrom_bounds x 214 0 (Nat.zero_le x) (h.trans_eq (by rw [Nat.zero_add, ← pow_add 2 214 214]))

theorem units_lt_of_isFinite (h : isFinite a = true) : units (fmag a) < 2 ^ 279 := by
  obtain ⟨k, s, hm, hlo, hhi⟩ := exists_scaled (fmag a)
  have hmag := isFinite_iff.1 h
  have hk : k ≤ 255 := by unfold infMag at hmag; omega
  rw [hm, units_scaled hlo hhi.le]
  calc s * 2 ^ k < 2 ^ 24 * 2 ^ k := Nat.mul_lt_mul_of_pos_right hhi (Nat.two_pow_pos k)
    _ ≤ 2 ^ 24 * 2 ^ 255 := Nat.mul_le_mul_left _ (Nat.pow_le_pow_right Nat.two_pos hk)
    _ = 2 ^ 279 := by rw [← pow_add]

/-- The square of a root in units: the value times 2^149. -/
def radicand (a : F32) : Nat := units (fmag a) * 2 ^ 149

theorem isqrt_radicand (h : isFinite a = true) : isqrt (radicand a) * isqrt (radicand a) ≤ radicand a ∧
    radicand a < (isqrt (radicand a) + 1) * (isqrt (radicand a) + 1) := by
  refine isqrt_bounds ?_
  rw [radicand, show (2 : Nat) ^ 428 = 2 ^ 279 * 2 ^ 149 from by rw [← pow_add]]
  exact Nat.mul_lt_mul_of_pos_right (units_lt_of_isFinite h) (Nat.two_pow_pos 149)

/-- The root of a finite number without a sign bit: exact, or rounded from half above the integer root. -/
theorem fsqrt_of_isFinite (ha : isFinite a = true) (hm : a.msb = false) : fsqrt a = fpack false
    (if isqrt (radicand a) * isqrt (radicand a) = radicand a then roundMag (isqrt (radicand a)) 1
      else roundMag (2 * isqrt (radicand a) + 1) 2) := by
  obtain ⟨hna, hia⟩ := classes_of_isFinite ha
  cases hz : isZero a with
  | true =>
    have hmag : fmag a = 0 := of_decide_eq_true hz
    have hzero : a = 0 := by rw [← fpack_msb_fmag a, hm, hmag]; rfl
    rw [hzero]
    decide +kernel
  | false =>
    rw [fsqrt, froot]
    simp only [hna, hz, hm, hia, Bool.false_eq_true, if_false, Option.getD_some]
    rfl

end

/-! ## Results nearest the exact one -/

section
variable {a b : F32}

theorem nearestEven_fadd (ha : isFinite a = true) (hb : isFinite b = true) (h : isFinite (fadd a b) = true) :
    NearestEven (fadd a b) (fval a + fval b) 1 := by
  rw [fadd_of_isFinite ha hb] at h ⊢
  have hnear := nearestEven_fpack_roundMag _ Nat.one_pos h
  rwa [signed_fadd_natAbs] at hnear

theorem nearestEven_fsub (ha : isFinite a = true) (hb : isFinite b = true) (h : isFinite (fsub a b) = true) :
    NearestEven (fsub a b) (fval a - fval b) 1 := by
  have hsub := fsub_eq_fadd_fneg (isNaN_of_isFinite h)
  rw [hsub] at h ⊢
  have hnear := nearestEven_fadd ha ((isFinite_fneg b).trans hb) h
  rwa [fval_fneg, ← sub_eq_add_neg] at hnear

theorem nearestEven_fmul (ha : isFinite a = true) (hb : isFinite b = true) (h : isFinite (fmul a b) = true) :
    NearestEven (fmul a b) (fval a * fval b) (2 ^ 149) := by
  rw [fmul_of_isFinite ha hb] at h ⊢
  rw [fval_eq_signed a, fval_eq_signed b, signed_mul_signed]
  exact nearestEven_fpack_roundMag _ (Nat.two_pow_pos 149) h

theorem nearestEven_fdiv (ha : isFinite a = true) (hb : isFinite b = true) (hz : isZero b = false)
    (h : isFinite (fdiv a b) = true) :
    NearestEven (fdiv a b) (signed (a.msb != b.msb) (units (fmag a) * 2 ^ 149)) (units (fmag b)) := by
  rw [fdiv_of_isFinite ha hb hz] at h ⊢
  exact nearestEven_fpack_roundMag _ (units_pos_of_not_isZero hz) h

/-- A distance in units of a signed divisor is that in units of its magnitude. -/
theorem natAbs_mul_signed_sub (v : Int) (p q : Bool) (m n : Nat) :
    (v * signed q n - signed p m).natAbs = (v * n - signed (p != q) m).natAbs := by
  cases q with
  | false => rw [Bool.bne_false]; rfl
  | true =>
    rw [← Int.natAbs_neg]
    congr 1
    cases p <;>
      simp only [signed, bne_self_eq_false, Bool.bne_true, Bool.not_false, if_true, if_false, Bool.false_eq_true] <;>
      ring

theorem natAbs_mul_fval_sub (v : Int) (a b : F32) : (v * fval b - fval a * 2 ^ 149).natAbs =
    (v * (units (fmag b) : Int) - signed (a.msb != b.msb) (units (fmag a) * 2 ^ 149)).natAbs := by
  rw [← natAbs_mul_signed_sub, ← signed_mul_natCast]
  rfl

/-! ## Roots and the midpoints of patterns -/

theorem four_mul_radicand (hm : a.msb = false) : (4 * (fval a * 2 ^ 149) : Int) = 4 * (radicand a : Int) := by
  rw [fval_eq_signed, hm, radicand]
  simp [signed]

/-- An integer root that is not exact is at least 2^24, so a step of the rounded root's binade is an even number of units. -/
theorem excessBits_isqrt_ne_zero (ha : isFinite a = true) (hpos : radicand a ≠ 0) :
    excessBits (isqrt (radicand a)) ≠ 0 := by
  obtain ⟨-, hhi⟩ := isqrt_radicand ha
  obtain ⟨hlt, -⟩ := excessBits_bounds (isqrt (radicand a))
  intro hzero
  rw [hzero, pow_zero, Nat.mul_one] at hlt
  have hunits : 1 ≤ units (fmag a) := Nat.pos_of_ne_zero fun h => hpos (by rw [radicand, h, Nat.zero_mul])
  have hbig : 2 ^ 149 ≤ radicand a := Nat.le_mul_of_pos_left _ hunits
  have hsmall : (isqrt (radicand a) + 1) * (isqrt (radicand a) + 1) ≤ 2 ^ 24 * 2 ^ 24 := Nat.mul_le_mul hlt hlt
  omega

/-- The magnitude of a root before it is packed. -/
def rootMag (a : F32) : Nat :=
  if isqrt (radicand a) * isqrt (radicand a) = radicand a then roundMag (isqrt (radicand a)) 1
  else roundMag (2 * isqrt (radicand a) + 1) 2

theorem fsqrt_eq_fpack (ha : isFinite a = true) (hm : a.msb = false) : fsqrt a = fpack false (rootMag a) :=
  fsqrt_of_isFinite ha hm

theorem rootMag_lt_inf (ha : isFinite a = true) : rootMag a < infMag := by
  obtain ⟨hlo, -⟩ := isqrt_radicand ha
  have hroot : isqrt (radicand a) < 2 ^ 214 := by
    by_contra hge
    have hsquare := Nat.mul_le_mul (not_lt.1 hge) (not_lt.1 hge)
    have hsmall : radicand a < 2 ^ 279 * 2 ^ 149 :=
      Nat.mul_lt_mul_of_pos_right (units_lt_of_isFinite ha) (Nat.two_pow_pos 149)
    rw [← pow_add, show 279 + 149 = 214 + 214 from rfl, pow_add] at hsmall
    exact absurd (hsquare.trans hlo) (not_le.2 hsmall)
  have hlimit : 2 * (2 * 2 ^ 214 + 1) < (2 ^ 25 - 1) * 2 ^ 252 := by norm_num
  have hfin {num den : Nat} (hpos : 0 < den) (hnum : num < den * ((2 ^ 25 - 1) * 2 ^ 252)) : roundMag num den < infMag :=
    lt_of_le_of_ne (roundMag_le_inf num den) fun h => absurd ((roundMag_eq_inf_iff hpos).1 h) (not_le.2 hnum)
  rw [rootMag]
  generalize isqrt (radicand a) = r at *
  split
  · exact hfin Nat.one_pos (by omega)
  · exact hfin Nat.two_pos (by omega)

/-- Where the integer root `r` is not exact, a pattern whose midpoint with the rounded root is `r + 1/2` does not exist: it
would lie an even number of units from it. -/
theorem rootMag_add_ne_of_inexact (ha : isFinite a = true)
    (hne : isqrt (radicand a) * isqrt (radicand a) ≠ radicand a) (m : Nat) :
    units (rootMag a) + units m ≠ 2 * isqrt (radicand a) + 1 := by
  intro hmid
  have hround : rootMag a = roundMag (2 * isqrt (radicand a) + 1) 2 := if_neg hne
  have hfin := rootMag_lt_inf ha
  rw [hround] at hmid hfin
  have hk : excessBits ((2 * isqrt (radicand a) + 1) / 2) ≠ 0 := by
    rw [show (2 * isqrt (radicand a) + 1) / 2 = isqrt (radicand a) by omega]
    obtain ⟨hlo, -⟩ := isqrt_radicand ha
    exact excessBits_isqrt_ne_zero ha fun hzero => hne (by omega)
  obtain ⟨-, htie⟩ := roundMag_nearest Nat.two_pos hfin m
  obtain ⟨⟨s, j, hs, hj, -, -⟩, -⟩ := htie (by omega) (by rintro rfl; omega)
  have heven : (s + j) * 2 ^ excessBits ((2 * isqrt (radicand a) + 1) / 2) % 2 = 0 :=
    Nat.mod_eq_zero_of_dvd (Dvd.dvd.mul_left (dvd_pow_self 2 hk) _)
  rw [Nat.add_mul, ← hs, ← hj] at heven
  omega

/-- A 25-bit odd number has no square that is a 24-bit number times a power of two. -/
theorem odd_square_ne {n k : Nat} (hodd : n % 2 = 1) (hn : 2 ^ 24 ≤ n) {m e : Nat} (hm : m ≠ 0) (hm' : m < 2 ^ 24) :
    n * 2 ^ k * (n * 2 ^ k) ≠ m * 2 ^ e := by
  intro heq
  have hcop : Nat.Coprime n 2 := Nat.coprime_two_right.2 (Nat.odd_iff.2 hodd)
  have hcop : Nat.Coprime (n * n) (2 ^ e) := (Nat.coprime_mul_iff_left.2 ⟨hcop, hcop⟩).pow_right e
  have hdvd : n * n ∣ m * 2 ^ e := ⟨2 ^ k * 2 ^ k, by rw [← heq]; ring⟩
  have hle : n * n ≤ m := Nat.le_of_dvd (Nat.pos_of_ne_zero hm) (hcop.dvd_of_dvd_mul_right hdvd)
  have hbig : 2 ^ 24 * 2 ^ 24 ≤ n * n := Nat.mul_le_mul hn hn
  omega

/-- Where the integer root is exact it is not the midpoint of the rounded root and another pattern: a midpoint has 25
significant bits, so its square is no radicand. -/
theorem rootMag_add_ne_of_exact (ha : isFinite a = true)
    (heq : isqrt (radicand a) * isqrt (radicand a) = radicand a) {m : Nat} (hm : m ≠ rootMag a) :
    units (rootMag a) + units m ≠ 2 * isqrt (radicand a) := by
  intro hmid
  have hround : rootMag a = roundMag (isqrt (radicand a)) 1 := if_pos heq
  have hfin := rootMag_lt_inf ha
  rw [hround] at hmid hfin hm
  obtain ⟨-, htie⟩ := roundMag_nearest Nat.one_pos hfin m
  obtain ⟨⟨s, j, hs, hj, hodd, hsum⟩, -⟩ := htie (by omega) hm
  have hpos : radicand a ≠ 0 := by
    intro hzero
    have hroot : isqrt (radicand a) = 0 := Nat.mul_self_inj.1 (heq.trans hzero)
    exact hm (units_strictMono.injective (by omega))
  have hk := excessBits_isqrt_ne_zero ha hpos
  have hlow := (quotient_bounds (num := isqrt (radicand a)) Nat.one_pos).2
  rw [Nat.div_one] at hsum hlow
  replace hlow := hlow.resolve_left hk
  rw [Nat.one_mul] at hsum hlow
  have hbig : 2 ^ 24 ≤ s + j := by
    refine Nat.le_of_mul_le_mul_right ?_ (Nat.two_pow_pos (excessBits (isqrt (radicand a))))
    omega
  obtain ⟨e, f, hmag, hlo, hf⟩ := exists_scaled (fmag a)
  have hradicand : radicand a = f * 2 ^ (e + 149) := by
    rw [radicand, hmag, units_scaled hlo hf.le, Nat.mul_assoc, ← pow_add]
  have hfne : f ≠ 0 := by
    rintro rfl
    exact hpos (hradicand.trans (Nat.zero_mul _))
  refine odd_square_ne (k := excessBits (isqrt (radicand a))) hodd hbig hfne hf (e := e + 149 + 2) ?_
  calc (s + j) * 2 ^ excessBits (isqrt (radicand a)) * ((s + j) * 2 ^ excessBits (isqrt (radicand a)))
      = 2 * isqrt (radicand a) * (2 * isqrt (radicand a)) := by rw [hsum]
    _ = isqrt (radicand a) * isqrt (radicand a) * 4 := by ring
    _ = f * 2 ^ (e + 149 + 2) := by rw [heq, hradicand, pow_add 2 (e + 149) 2]; ring

/-- The rounded root against any pattern: the exact root lies on its side of their midpoint, and is never the midpoint. -/
theorem rootMag_midpoint (ha : isFinite a = true) (m : Nat) :
    (units (rootMag a) < units m → 4 * radicand a ≤ (units (rootMag a) + units m) ^ 2) ∧
    (units m < units (rootMag a) → (units (rootMag a) + units m) ^ 2 ≤ 4 * radicand a) ∧
    (m ≠ rootMag a → (units (rootMag a) + units m) ^ 2 ≠ 4 * radicand a) := by
  obtain ⟨hlo, hhi⟩ := isqrt_radicand ha
  have hfin := rootMag_lt_inf ha
  have hsquare {n : Nat} : (2 * n) ^ 2 = 4 * (n * n) := by ring
  by_cases heq : isqrt (radicand a) * isqrt (radicand a) = radicand a
  case pos =>
    have hround : rootMag a = roundMag (isqrt (radicand a)) 1 := if_pos heq
    obtain ⟨hnear, -⟩ := roundMag_nearest Nat.one_pos (hround ▸ hfin) m
    rw [← hround] at hnear
    rw [← heq, ← hsquare]
    refine ⟨fun hlt => Nat.pow_le_pow_left (by omega) 2, fun hlt => Nat.pow_le_pow_left (by omega) 2, fun hm h => ?_⟩
    exact rootMag_add_ne_of_exact ha heq hm (Nat.pow_left_injective (by decide) h)
  case neg =>
    have hround : rootMag a = roundMag (2 * isqrt (radicand a) + 1) 2 := if_neg heq
    have hne := rootMag_add_ne_of_inexact ha heq m
    obtain ⟨hnear, -⟩ := roundMag_nearest Nat.two_pos (hround ▸ hfin) m
    rw [← hround] at hnear
    have habove (h : 2 * (isqrt (radicand a) + 1) ≤ units (rootMag a) + units m) :
        4 * radicand a < (units (rootMag a) + units m) ^ 2 := by
      have hpow := Nat.pow_le_pow_left h 2
      rw [hsquare] at hpow
      omega
    have hbelow (h : units (rootMag a) + units m ≤ 2 * isqrt (radicand a)) :
        (units (rootMag a) + units m) ^ 2 < 4 * radicand a := by
      have hpow := Nat.pow_le_pow_left h 2
      rw [hsquare] at hpow
      omega
    refine ⟨fun hlt => (habove (by omega)).le, fun hlt => (hbelow (by omega)).le, fun _ => ?_⟩
    rcases Nat.lt_or_ge (2 * isqrt (radicand a)) (units (rootMag a) + units m) with h | h
    · exact (habove (by omega)).ne'
    · exact (hbelow h).ne

theorem fval_fsqrt (ha : isFinite a = true) (hm : a.msb = false) : fval (fsqrt a) = units (rootMag a) := by
  rw [fsqrt_eq_fpack ha hm, fval_fpack ((rootMag_lt_inf ha).trans (by decide))]
  rfl

/-- A value that is not negative is a magnitude's. -/
theorem exists_units_of_nonneg {x : F32} (h : 0 ≤ fval x) : ∃ m, fval x = units m := by
  cases hm : x.msb with
  | false => exact ⟨fmag x, by rw [fval, hm]; rfl⟩
  | true =>
    refine ⟨0, ?_⟩
    rw [fval, hm, if_pos rfl] at h ⊢
    rw [units_zero]
    omega

/-- The rounded root against the value of any pattern that is not negative. -/
theorem fsqrt_midpoint (ha : isFinite a = true) (hm : a.msb = false) {x : F32} (hx : 0 ≤ fval x) :
    (fval (fsqrt a) < fval x → 4 * (fval a * 2 ^ 149) ≤ (fval (fsqrt a) + fval x) ^ 2) ∧
    (fval x < fval (fsqrt a) → (fval (fsqrt a) + fval x) ^ 2 ≤ 4 * (fval a * 2 ^ 149)) ∧
    (fval x ≠ fval (fsqrt a) → (fval (fsqrt a) + fval x) ^ 2 ≠ 4 * (fval a * 2 ^ 149)) := by
  obtain ⟨m, hxm⟩ := exists_units_of_nonneg hx
  obtain ⟨hlt, hgt, hne⟩ := rootMag_midpoint ha m
  rw [four_mul_radicand hm, fval_fsqrt ha hm, hxm]
  refine ⟨fun h => ?_, fun h => ?_, fun h => ?_⟩
  · exact_mod_cast hlt (by exact_mod_cast h)
  · exact_mod_cast hgt (by exact_mod_cast h)
  · exact_mod_cast hne (by rintro rfl; exact h rfl)

end

/-! ## The obligations -/

/-- Settles O54: each result is the rounded exact one, and the root lies on its side of every midpoint. -/
theorem operationsRoundExactResult : Obligations.OperationsRoundExactResult := by
  intro a b x ha hb hx
  refine ⟨fun h => ?add, fun h => ?sub, fun h => ?mul, fun hz h => ?div,
    fun hm => ⟨?nonneg, fun h => ?above, fun h0 h => ?below⟩⟩
  case add => simpa only [Nat.cast_one, mul_one] using (nearestEven_fadd ha hb h x hx).1
  case sub => simpa only [Nat.cast_one, mul_one] using (nearestEven_fsub ha hb h x hx).1
  case mul => exact_mod_cast (nearestEven_fmul ha hb h x hx).1
  case div =>
    rw [natAbs_mul_fval_sub, natAbs_mul_fval_sub]
    exact (nearestEven_fdiv ha hb hz h x hx).1
  case nonneg => rw [fval_fsqrt ha hm]; exact Int.natCast_nonneg _
  case above =>
    have h0 : 0 ≤ fval x := le_trans (by rw [fval_fsqrt ha hm]; exact Int.natCast_nonneg _) h.le
    exact (fsqrt_midpoint ha hm h0).1 h
  case below => exact (fsqrt_midpoint ha hm h0).2.1 h

/-- Settles O57: what makes a result nearest makes it even in a tie, and the root meets no midpoint. -/
theorem operationTiesRoundToEven : Obligations.OperationTiesRoundToEven := by
  intro a b x ha hb hx
  refine ⟨fun h hne heq => ?add, fun h hne heq => ?sub, fun h hne heq => ?mul, fun hz h hne heq => ?div,
    fun hm h0 hne => ?root⟩
  case add => exact (nearestEven_fadd ha hb h x hx).2 (by simpa only [Nat.cast_one, mul_one] using heq) hne
  case sub => exact (nearestEven_fsub ha hb h x hx).2 (by simpa only [Nat.cast_one, mul_one] using heq) hne
  case mul => exact (nearestEven_fmul ha hb h x hx).2 (by exact_mod_cast heq) hne
  case div =>
    rw [natAbs_mul_fval_sub, natAbs_mul_fval_sub] at heq
    exact (nearestEven_fdiv ha hb hz h x hx).2 heq hne
  case root => exact (fsqrt_midpoint ha hm h0).2.2 hne

/-- Settles O58: a literal is the rounded quotient of its digits and its scale. -/
theorem floatLiteralsAreNearest : Obligations.FloatLiteralsAreNearest := by
  intro neg digits scale v exact
  have hpos : 0 < 10 ^ scale := Nat.pow_pos (by decide)
  have hmag : fmag v = roundMag exact (10 ^ scale) := fmag_fpack (roundMag_lt_sign _ _)
  refine ⟨msb_fpack_roundMag _ _ _, isNaN_fpack_roundMag _ _ _, ?inf, fun hfin x hx => ?nearest, ?literalInf⟩
  case inf => rw [isInf, decide_eq_true_iff, hmag, roundMag_eq_inf_iff hpos]
  case nearest =>
    intro value
    have hnear := nearestEven_fpack_roundMag neg hpos hfin x hx
    rw [Nat.cast_pow] at hnear
    exact hnear
  case literalInf => cases neg <;> rfl

/-- Settles O59: the fields of a pattern are those of its magnitude, and an integer up to 2^24 is exact. -/
theorem patternsHaveClassAndValue : Obligations.PatternsHaveClassAndValue := by
  refine ⟨fun x => ?pattern, fun n hn => ⟨isFinite_fofInt hn, fval_fofInt hn, msb_fpack_roundMag _ _ _⟩⟩
  case pattern =>
    intro exponent fraction magnitude
    have hfields : fmag x = exponent * 2 ^ 23 + fraction := fmag_fields x
    have hexp : exponent < 2 ^ 8 := (x.extractLsb' 23 8).isLt
    have hfrac : fraction < 2 ^ 23 := (x.extractLsb' 0 23).isLt
    simp only [isNaN, isInf, isFinite, isZero, decide_eq_true_eq, hfields, infMag]
    refine ⟨by omega, by omega, by omega, by omega, fun _ => ?_⟩
    have hvalue : (units (fmag x) : Int) = magnitude := by
      rw [hfields, units_fields exponent hfrac]
      change _ = if exponent = 0 then _ else _
      split
      · rfl
      · push_cast; rfl
    rw [fval, hvalue]
    rfl

end Sys2Proof.Machine
end

section
/-! PROOFS. The comparisons, and the operations on zeros, infinities and NaN (00_scope.md R11): the order of the patterns
against that of their values, and each operation by the classes of its operands. -/
namespace Sys2Proof.Machine

/-! ## The order of patterns -/

theorem units_eq_zero_iff {m : Nat} : units m = 0 ↔ m = 0 := by
  rw [← units_zero, units_strictMono.injective.eq_iff, units_zero]

/-- The keys order as the values do. -/
theorem fkey_lt_iff (a b : F32) : fkey a < fkey b ↔ fval a < fval b := by
  have hlt : units (fmag a) < units (fmag b) ↔ fmag a < fmag b := units_strictMono.lt_iff_lt
  have hgt : units (fmag b) < units (fmag a) ↔ fmag b < fmag a := units_strictMono.lt_iff_lt
  have hza : units (fmag a) = 0 ↔ fmag a = 0 := units_eq_zero_iff
  have hzb : units (fmag b) = 0 ↔ fmag b = 0 := units_eq_zero_iff
  unfold fkey fval
  cases a.msb <;> cases b.msb <;> simp only [if_true, if_false, Bool.false_eq_true] <;> omega

theorem fkey_le_iff (a b : F32) : fkey a ≤ fkey b ↔ fval a ≤ fval b := by
  rw [← not_lt, fkey_lt_iff, not_lt]

theorem fkey_eq_iff (a b : F32) : fkey a = fkey b ↔ fval a = fval b := by
  rw [le_antisymm_iff, fkey_le_iff, fkey_le_iff, ← le_antisymm_iff]

theorem feq_iff {a b : F32} : feq a b = true ↔ isNaN a = false ∧ isNaN b = false ∧ fkey a = fkey b := by
  simp [feq, and_assoc]

/-- The key of a pattern that is no NaN lies between those of the infinities, each of which is one pattern's. -/
theorem fkey_bounds {x : F32} (h : isNaN x = false) :
    -(infMag : Int) ≤ fkey x ∧ fkey x ≤ infMag ∧ (fkey x = infMag ↔ x = 0x7F800000) ∧
    (fkey x = -(infMag : Int) ↔ x = 0xFF800000) := by
  have hmag : fmag x ≤ infMag := not_lt.1 (of_decide_eq_false h)
  have hpack := fpack_msb_fmag x
  refine ⟨?_, ?_, ⟨fun hkey => ?_, ?_⟩, ⟨fun hkey => ?_, ?_⟩⟩
  case refine_1 | refine_2 => unfold fkey; split <;> omega
  case refine_4 | refine_6 => rintro rfl; decide
  case refine_3 =>
    cases hm : x.msb with
    | true => rw [fkey_of_msb_true hm] at hkey; unfold infMag at hkey; omega
    | false =>
      rw [fkey_of_msb_false hm] at hkey
      rw [← hpack, hm, Int.ofNat_inj.1 hkey]
      rfl
  case refine_5 =>
    cases hm : x.msb with
    | true =>
      rw [fkey_of_msb_true hm] at hkey
      rw [← hpack, hm, show fmag x = infMag by omega]
      rfl
    | false => rw [fkey_of_msb_false hm] at hkey; unfold infMag at hkey; omega

theorem isInf_iff {x : F32} : isInf x = true ↔ x = 0x7F800000 ∨ x = 0xFF800000 := by
  constructor
  case mp =>
    intro h
    have hmag : fmag x = infMag := of_decide_eq_true h
    rw [← fpack_msb_fmag x, hmag]
    cases x.msb with
    | false => exact .inl rfl
    | true => exact .inr rfl
  case mpr => rintro (rfl | rfl) <;> decide

/-- Settles O55: the keys order as the values; the infinities hold the extreme keys; each comparison tests for NaN first. -/
theorem comparisonsOrderValues : Obligations.ComparisonsOrderValues := by
  refine ⟨fun a b ha hb => ?finite, fun a b ha hb hinf => ?infinite, fun a b hnan => ?nan⟩
  case finite =>
    have hna := isNaN_of_isFinite ha
    have hnb := isNaN_of_isFinite hb
    simp only [fgt, fge, flt_iff, fle_iff, feq_iff, hna, hnb, true_and, fkey_lt_iff, fkey_le_iff, fkey_eq_iff]
  case infinite =>
    obtain ⟨hlo, hhi, hpos, hneg⟩ := fkey_bounds ha
    obtain ⟨hlo', hhi', hpos', hneg'⟩ := fkey_bounds hb
    have hsame : a = b ↔ fkey a = fkey b := by
      refine ⟨congrArg fkey, fun h => ?_⟩
      rw [isInf_iff, isInf_iff, ← hpos, ← hneg, ← hpos', ← hneg', h] at hinf
      rcases or_self_iff.1 hinf with hkey | hkey
      · rw [hpos.1 (h.trans hkey), hpos'.1 hkey]
      · rw [hneg.1 (h.trans hkey), hneg'.1 hkey]
    rw [isInf_iff, isInf_iff, ← hpos, ← hneg, ← hpos', ← hneg'] at hinf
    simp only [fgt, fge, flt_iff, fle_iff, feq_iff, ha, hb, true_and, ne_eq, hsame, ← hpos, ← hneg, ← hpos', ← hneg']
    refine ⟨?_, ?_, ?_, ?_, trivial⟩ <;> omega
  case nan =>
    rcases hnan with h | h <;> simp [flt, fle, fgt, fge, feq, h]

/-! ## Classes -/

section
variable {a b : F32}

theorem isNaN_of_isInf (h : isInf a = true) : isNaN a = false := by
  have hmag : fmag a = infMag := of_decide_eq_true h
  simp [isNaN, hmag]

theorem isFinite_of_not (hn : isNaN a = false) (hi : isInf a = false) : isFinite a = true := by
  have h1 := of_decide_eq_false hn
  have h2 := of_decide_eq_false hi
  exact isFinite_iff.2 (by omega)

theorem isFinite_of_isZero (h : isZero a = true) : isFinite a = true := by
  have hmag : fmag a = 0 := of_decide_eq_true h
  exact isFinite_iff.2 (by rw [hmag]; decide)

theorem isZero_of_isInf (h : isInf a = true) : isZero a = false := by
  have hmag : fmag a = infMag := of_decide_eq_true h
  exact decide_eq_false (by rw [hmag]; decide)

theorem isNaN_fpack_of_le {neg : Bool} {m : Nat} (h : m ≤ infMag) : isNaN (fpack neg m) = false := by
  rw [isNaN, fmag_fpack (h.trans_lt (by decide)), decide_eq_false (not_lt.2 h)]

theorem isInf_fpack_infMag (neg : Bool) : isInf (fpack neg infMag) = true := by cases neg <;> decide

theorem isZero_fpack_zero (neg : Bool) : isZero (fpack neg 0) = true := by cases neg <;> decide

theorem isInf_fpack_roundMag_iff {neg : Bool} {num den : Nat} (h : 0 < den) :
    isInf (fpack neg (roundMag num den)) = true ↔ den * ((2 ^ 25 - 1) * 2 ^ 252) ≤ num := by
  rw [isInf, decide_eq_true_iff, fmag_fpack (roundMag_lt_sign num den), roundMag_eq_inf_iff h]

theorem isZero_fpack_roundMag_iff {neg : Bool} {num den : Nat} :
    isZero (fpack neg (roundMag num den)) = true ↔ roundMag num den = 0 := by
  rw [isZero, decide_eq_true_iff, fmag_fpack (roundMag_lt_sign num den)]

theorem roundMag_zero {den : Nat} (h : 0 < den) : roundMag 0 den = 0 := by
  have hdiv := divNearestEven_mul_self 0 (Nat.mul_pos h (Nat.two_pow_pos (excessBits (0 / den))))
  rw [Nat.zero_mul] at hdiv
  rw [roundMag_eq_min, significand, hdiv, Nat.zero_div]
  rfl

/-- A whole number of units is not rounded to zero. -/
theorem roundMag_ne_zero {n : Nat} (h : n ≠ 0) : roundMag n 1 ≠ 0 := by
  intro hzero
  obtain ⟨hnear, -⟩ := roundMag_nearest Nat.one_pos (hzero ▸ (by decide : 0 < infMag)) 1
  rw [hzero, units_zero, show units 1 = 1 from rfl] at hnear
  omega

/-! ## Sums by class -/

theorem isNaN_fadd_of_isNaN (h : isNaN a = true ∨ isNaN b = true) : isNaN (fadd a b) = true := by
  have hnone : fsum a b = none := if_pos (by simpa using h)
  rw [fadd, hnone, Option.getD_none, isNaN_nanPattern]

theorem isNaN_fadd_of_opposite (ha : isInf a = true) (hb : isInf b = true) (h : a.msb ≠ b.msb) :
    isNaN (fadd a b) = true := by
  simp [fadd, fsum, isNaN_of_isInf ha, isNaN_of_isInf hb, ha, hb, h]

theorem fadd_of_isInf_left (ha : isInf a = true) (hn : isNaN b = false) (h : isInf b = true → a.msb = b.msb) :
    fadd a b = a := by
  have hcond : (isInf b && a.msb != b.msb) = false := by
    cases hb : isInf b with
    | false => rfl
    | true => simp [h hb]
  simp only [fadd, fsum, isNaN_of_isInf ha, hn, ha, hcond, Bool.or_self, if_true, if_false, Bool.false_eq_true,
    Option.getD_some]

theorem fadd_of_isInf_right (ha : isFinite a = true) (hb : isInf b = true) : fadd a b = b := by
  obtain ⟨hna, hia⟩ := classes_of_isFinite ha
  simp [fadd, fsum, hna, hia, isNaN_of_isInf hb, hb]

theorem isNaN_fadd_of_isFinite (ha : isFinite a = true) (hb : isFinite b = true) : isNaN (fadd a b) = false := by
  rw [fadd_of_isFinite ha hb, isNaN_fpack_roundMag]

theorem isNaN_fadd_iff : isNaN (fadd a b) = true ↔
    isNaN a = true ∨ isNaN b = true ∨ (isInf a = true ∧ isInf b = true ∧ a.msb ≠ b.msb) := by
  refine ⟨fun h => ?_, ?_⟩
  case refine_2 =>
    rintro (h | h | ⟨ha, hb, h⟩)
    · exact isNaN_fadd_of_isNaN (.inl h)
    · exact isNaN_fadd_of_isNaN (.inr h)
    · exact isNaN_fadd_of_opposite ha hb h
  case refine_1 =>
    by_contra hnot
    simp only [not_or, not_and, Bool.not_eq_true, not_not] at hnot
    obtain ⟨hna, hnb, hinf⟩ := hnot
    have hnum : isNaN (fadd a b) = false := by
      cases hia : isInf a with
      | true => rw [fadd_of_isInf_left hia hnb (hinf hia), hna]
      | false =>
        have ha := isFinite_of_not hna hia
        cases hib : isInf b with
        | true => rw [fadd_of_isInf_right ha hib, hnb]
        | false => exact isNaN_fadd_of_isFinite ha (isFinite_of_not hnb hib)
    exact Bool.false_ne_true (hnum.symm.trans h)

/-! ## Differences -/

theorem isNaN_fneg (x : F32) : isNaN (fneg x) = isNaN x := by rw [isNaN, isNaN, fmag_fneg]

theorem isInf_fneg (x : F32) : isInf (fneg x) = isInf x := by rw [isInf, isInf, fmag_fneg]

theorem isNaN_fsub_eq (a b : F32) : isNaN (fsub a b) = isNaN (fadd a (fneg b)) := by
  rw [fsub, fadd]
  cases fsum a (fneg b) with
  | none => rw [Option.getD_none, Option.getD_none, isNaN_nanPattern, isNaN_nanPattern]
  | some c => rfl

theorem isNaN_fsub_iff : isNaN (fsub a b) = true ↔
    isNaN a = true ∨ isNaN b = true ∨ (isInf a = true ∧ isInf b = true ∧ a.msb = b.msb) := by
  rw [isNaN_fsub_eq, isNaN_fadd_iff, isNaN_fneg, isInf_fneg, msb_fneg]
  simp only [ne_eq, Bool.not_eq_not]

theorem fsub_of_isInf_left (ha : isInf a = true) (hn : isNaN b = false) (h : isInf b = true → a.msb ≠ b.msb) :
    fsub a b = a := by
  have hnum : isNaN (fsub a b) = false := by
    rw [Bool.eq_false_iff, ne_eq, isNaN_fsub_iff]
    rintro (hna | hnb | ⟨-, hib, hsame⟩)
    · exact Bool.false_ne_true ((isNaN_of_isInf ha).symm.trans hna)
    · exact Bool.false_ne_true (hn.symm.trans hnb)
    · exact h hib hsame
  rw [fsub_eq_fadd_fneg hnum]
  refine fadd_of_isInf_left ha ((isNaN_fneg b).trans hn) fun hib => ?_
  rw [msb_fneg]
  exact Bool.eq_not_of_ne (h ((isInf_fneg b).symm.trans hib))

/-! ## Products by class -/

theorem isNaN_fmul_of_isNaN (h : isNaN a = true ∨ isNaN b = true) : isNaN (fmul a b) = true := by
  have hnone : fprod a b = none := if_pos (by simpa using h)
  rw [fmul, hnone, Option.getD_none, isNaN_nanPattern]

theorem isNaN_fmul_of_zero_inf (ha : isNaN a = false) (hb : isNaN b = false) (hi : isInf a = true ∨ isInf b = true)
    (hz : isZero a = true ∨ isZero b = true) : isNaN (fmul a b) = true := by
  simp [fmul, fprod, ha, hb, hi, hz]

theorem fmul_of_isInf (ha : isNaN a = false) (hb : isNaN b = false) (hi : isInf a = true ∨ isInf b = true)
    (hz : isZero a = false ∧ isZero b = false) : fmul a b = fpack (a.msb != b.msb) infMag := by
  simp [fmul, fprod, ha, hb, hi, hz]

/-- A product that no rule makes a NaN: its sign, its magnitude at most the infinity, and that with an infinite operand. -/
theorem exists_fmul_eq_fpack (ha : isNaN a = false) (hb : isNaN b = false) (hab : isInf a = true → isZero b = false)
    (hba : isInf b = true → isZero a = false) :
    ∃ m ≤ infMag, fmul a b = fpack (a.msb != b.msb) m ∧ (isInf a = true ∨ isInf b = true → m = infMag) := by
  by_cases hi : isInf a = true ∨ isInf b = true
  · refine ⟨infMag, le_rfl, fmul_of_isInf ha hb hi ?_, fun _ => rfl⟩
    rcases hi with hi | hi
    · exact ⟨isZero_of_isInf hi, hab hi⟩
    · exact ⟨hba hi, isZero_of_isInf hi⟩
  · obtain ⟨hia, hib⟩ := not_or.1 hi
    have hfa := isFinite_of_not ha (Bool.eq_false_iff.2 hia)
    have hfb := isFinite_of_not hb (Bool.eq_false_iff.2 hib)
    exact ⟨_, roundMag_le_inf _ _, fmul_of_isFinite hfa hfb, fun h => absurd h hi⟩

theorem isNaN_fmul_iff : isNaN (fmul a b) = true ↔
    isNaN a = true ∨ isNaN b = true ∨ (isInf a = true ∧ isZero b = true) ∨ (isZero a = true ∧ isInf b = true) := by
  refine ⟨fun h => ?_, ?_⟩
  case refine_2 =>
    rintro (h | h | ⟨hi, hz⟩ | ⟨hz, hi⟩)
    · exact isNaN_fmul_of_isNaN (.inl h)
    · exact isNaN_fmul_of_isNaN (.inr h)
    · exact isNaN_fmul_of_zero_inf (isNaN_of_isInf hi) (isNaN_of_isFinite (isFinite_of_isZero hz)) (.inl hi) (.inr hz)
    · exact isNaN_fmul_of_zero_inf (isNaN_of_isFinite (isFinite_of_isZero hz)) (isNaN_of_isInf hi) (.inr hi) (.inl hz)
  case refine_1 =>
    by_contra hnot
    simp only [not_or, not_and, Bool.not_eq_true] at hnot
    obtain ⟨hna, hnb, hab, hba⟩ := hnot
    obtain ⟨m, hm, heq, -⟩ := exists_fmul_eq_fpack hna hnb hab fun hi => Bool.eq_false_iff.2 fun hz =>
      Bool.false_ne_true ((hba hz).symm.trans hi)
    rw [heq, isNaN_fpack_of_le hm] at h
    exact Bool.false_ne_true h

/-! ## Quotients by class -/

theorem isNaN_fdiv_of_isNaN (h : isNaN a = true ∨ isNaN b = true) : isNaN (fdiv a b) = true := by
  have hnone : fquot a b = none := if_pos (by simpa using h)
  rw [fdiv, hnone, Option.getD_none, isNaN_nanPattern]

theorem isNaN_fdiv_of_inf_inf (ha : isInf a = true) (hb : isInf b = true) : isNaN (fdiv a b) = true := by
  simp [fdiv, fquot, isNaN_of_isInf ha, isNaN_of_isInf hb, ha, hb]

theorem isNaN_fdiv_of_zero_zero (ha : isZero a = true) (hb : isZero b = true) : isNaN (fdiv a b) = true := by
  obtain ⟨hna, hia⟩ := classes_of_isFinite (isFinite_of_isZero ha)
  obtain ⟨hnb, hib⟩ := classes_of_isFinite (isFinite_of_isZero hb)
  simp [fdiv, fquot, hna, hnb, hia, hib, ha, hb]

theorem fdiv_of_isInf_left (ha : isInf a = true) (hb : isFinite b = true) : fdiv a b = fpack (a.msb != b.msb) infMag := by
  obtain ⟨hnb, hib⟩ := classes_of_isFinite hb
  simp [fdiv, fquot, isNaN_of_isInf ha, hnb, ha, hib]

theorem fdiv_of_isInf_right (ha : isFinite a = true) (hb : isInf b = true) : fdiv a b = fpack (a.msb != b.msb) 0 := by
  obtain ⟨hna, hia⟩ := classes_of_isFinite ha
  simp [fdiv, fquot, isNaN_of_isInf hb, hna, hia, hb]

theorem fdiv_of_isZero_right (ha : isFinite a = true) (hz : isZero a = false) (hb : isZero b = true) :
    fdiv a b = fpack (a.msb != b.msb) infMag := by
  obtain ⟨hna, hia⟩ := classes_of_isFinite ha
  obtain ⟨hnb, hib⟩ := classes_of_isFinite (isFinite_of_isZero hb)
  simp [fdiv, fquot, hna, hia, hnb, hib, hz, hb]

/-- A quotient that no rule makes a NaN: its sign, its magnitude at most the infinity, and that at the infinities and zeros. -/
theorem exists_fdiv_eq_fpack (ha : isNaN a = false) (hb : isNaN b = false) (hinf : isInf a = true → isInf b = false)
    (hzero : isZero a = true → isZero b = false) :
    ∃ m ≤ infMag, fdiv a b = fpack (a.msb != b.msb) m ∧ (isInf a = true ∨ isZero b = true → m = infMag) ∧
      (isZero a = true ∨ isInf b = true → m = 0) := by
  cases hia : isInf a with
  | true =>
    have hfb := isFinite_of_not hb (hinf hia)
    refine ⟨infMag, le_rfl, fdiv_of_isInf_left hia hfb, fun _ => rfl, ?_⟩
    simp [isZero_of_isInf hia, hinf hia]
  | false =>
    have hfa := isFinite_of_not ha hia
    cases hib : isInf b with
    | true =>
      refine ⟨0, Nat.zero_le _, fdiv_of_isInf_right hfa hib, ?_, fun _ => rfl⟩
      simp [isZero_of_isInf hib]
    | false =>
      have hfb := isFinite_of_not hb hib
      cases hzb : isZero b with
      | true =>
        have hza : isZero a = false := Bool.eq_false_iff.2 fun hza => Bool.false_ne_true ((hzero hza).symm.trans hzb)
        refine ⟨infMag, le_rfl, fdiv_of_isZero_right hfa hza hzb, fun _ => rfl, ?_⟩
        simp [hza]
      | false =>
        refine ⟨_, roundMag_le_inf _ _, fdiv_of_isFinite hfa hfb hzb, by simp, fun h => ?_⟩
        have hmag : fmag a = 0 := of_decide_eq_true (h.resolve_right Bool.false_ne_true)
        rw [hmag, units_zero, Nat.zero_mul, roundMag_zero (units_pos_of_not_isZero hzb)]

theorem isNaN_fdiv_iff : isNaN (fdiv a b) = true ↔
    isNaN a = true ∨ isNaN b = true ∨ (isInf a = true ∧ isInf b = true) ∨ (isZero a = true ∧ isZero b = true) := by
  refine ⟨fun h => ?_, ?_⟩
  case refine_2 =>
    rintro (h | h | ⟨ha, hb⟩ | ⟨ha, hb⟩)
    · exact isNaN_fdiv_of_isNaN (.inl h)
    · exact isNaN_fdiv_of_isNaN (.inr h)
    · exact isNaN_fdiv_of_inf_inf ha hb
    · exact isNaN_fdiv_of_zero_zero ha hb
  case refine_1 =>
    by_contra hnot
    simp only [not_or, not_and, Bool.not_eq_true] at hnot
    obtain ⟨hna, hnb, hinf, hzero⟩ := hnot
    obtain ⟨m, hm, heq, -⟩ := exists_fdiv_eq_fpack hna hnb hinf hzero
    rw [heq, isNaN_fpack_of_le hm] at h
    exact Bool.false_ne_true h

/-! ## Roots by class -/

theorem isNaN_fsqrt_iff : isNaN (fsqrt a) = true ↔ isNaN a = true ∨ (a.msb = true ∧ isZero a = false) := by
  cases hn : isNaN a with
  | true => simp [fsqrt, froot, hn]
  | false =>
    cases hm : a.msb with
    | false => simp [(fsqrt_nonneg hn hm).1]
    | true => cases hz : isZero a <;> simp [fsqrt, froot, hn, hm, hz]

end

/-! ## The obligation -/

/-- Settles O56: each clause is the operation's value in one class of its operands. -/
theorem operationsOnSpecialValues : Obligations.OperationsOnSpecialValues := by
  unfold Obligations.OperationsOnSpecialValues
  intro limit
  refine ⟨fun a b => isNaN_fadd_iff, fun a b => isNaN_fsub_iff, fun a b => isNaN_fmul_iff, fun a b => isNaN_fdiv_iff,
    fun a => isNaN_fsqrt_iff, fun a b ha hb => ?infFinite, fun a b ha hb => ?infInf, fun a b => fsub_eq_fadd_fneg,
    fun a b h => ?product, fun a b h => ?quotient, ⟨by decide +kernel, by decide +kernel, by decide +kernel⟩,
    fun a b ha hb => ?finite⟩
  case infFinite =>
    obtain ⟨hnb, hib⟩ := classes_of_isFinite hb
    have hne : isInf b = true → False := fun h => Bool.false_ne_true (hib.symm.trans h)
    exact ⟨fadd_of_isInf_left ha hnb fun h => (hne h).elim, fadd_of_isInf_right hb ha,
      fsub_of_isInf_left ha hnb fun h => (hne h).elim⟩
  case infInf =>
    have hnb := isNaN_of_isInf hb
    exact ⟨fun hs => fadd_of_isInf_left ha hnb fun _ => hs, fun hs => fsub_of_isInf_left ha hnb fun _ => hs⟩
  case product =>
    rw [Bool.eq_false_iff, ne_eq, isNaN_fmul_iff] at h
    simp only [not_or, not_and, Bool.not_eq_true] at h
    obtain ⟨hna, hnb, hab, hba⟩ := h
    obtain ⟨m, hm, heq, hinf⟩ := exists_fmul_eq_fpack hna hnb hab fun hi => Bool.eq_false_iff.2 fun hz =>
      Bool.false_ne_true ((hba hz).symm.trans hi)
    rw [heq]
    exact ⟨msb_fpack (hm.trans_lt (by decide)), fun hi => hinf hi ▸ isInf_fpack_infMag _⟩
  case quotient =>
    rw [Bool.eq_false_iff, ne_eq, isNaN_fdiv_iff] at h
    simp only [not_or, not_and, Bool.not_eq_true] at h
    obtain ⟨hna, hnb, hi, hz⟩ := h
    obtain ⟨m, hm, heq, hinf, hzero⟩ := exists_fdiv_eq_fpack hna hnb hi hz
    rw [heq]
    exact ⟨msb_fpack (hm.trans_lt (by decide)), fun h => hinf h ▸ isInf_fpack_infMag _,
      fun h => hzero h ▸ isZero_fpack_zero _⟩
  case finite =>
    have hadd := fadd_of_isFinite ha hb
    refine ⟨fun h => ?zeroSum, fun h => ?sum, ?addInf, ?mulInf, fun hz => ?divInf, fun hm => ?root⟩
    case zeroSum =>
      rw [hadd, if_pos h, h]
      exact ⟨isZero_fpack_roundMag_iff.2 (roundMag_zero Nat.one_pos), msb_fpack_roundMag _ _ _⟩
    case sum =>
      rw [hadd, if_neg h]
      refine ⟨Bool.eq_false_iff.2 fun hzero => ?_, msb_fpack_roundMag _ _ _⟩
      exact roundMag_ne_zero (Int.natAbs_ne_zero.2 h) (isZero_fpack_roundMag_iff.1 hzero)
    case addInf => rw [hadd, isInf_fpack_roundMag_iff Nat.one_pos, Nat.one_mul]
    case mulInf =>
      rw [fmul_of_isFinite ha hb, isInf_fpack_roundMag_iff (Nat.two_pow_pos 149), Int.natAbs_mul, fval_eq_signed,
        fval_eq_signed, natAbs_signed, natAbs_signed, Nat.mul_comm]
    case divInf =>
      rw [fdiv_of_isFinite ha hb hz, isInf_fpack_roundMag_iff (units_pos_of_not_isZero hz), Int.natAbs_mul,
        fval_eq_signed, fval_eq_signed, natAbs_signed, natAbs_signed, Nat.mul_comm (units (fmag b))]
      rfl
    case root =>
      have hfin : isFinite (fsqrt a) = true := fsqrt_eq_fpack ha hm ▸ isFinite_fpack (rootMag_lt_inf ha)
      exact ⟨hfin, (fsqrt_nonneg (isNaN_of_isFinite ha) hm).2⟩

end Sys2Proof.Machine
end

section
/-! PROOFS. The sign of the magnitude, the empty and the one-sample block, the floor of the threshold (41_goertzel.md R113 to
R115; 42_threshold_debounce.md R122), and the speed estimate at a constant unit (43_timing_classifier.md R141). -/
namespace Sys2Proof.Machine

open Safety

/-! ## The sign of the magnitude (41_goertzel.md R115) -/

theorem fge_zero_of_msb_false {x : F32} (hn : isNaN x = false) (hm : x.msb = false) : fge x 0 = true :=
  fle_iff.2 ⟨by decide, hn, by rw [fkey_of_msb_false hm, fkey_zero]; omega⟩

/-- A number that is not at most zero carries no sign bit. -/
theorem msb_of_not_fle_zero {x : F32} (hn : isNaN x = false) (h : ¬fle x 0 = true) : x.msb = false := by
  rw [Bool.eq_false_iff]
  intro hm
  exact h (fle_iff.2 ⟨hn, by decide, by rw [fkey_of_msb_true hm, fkey_zero]; omega⟩)

theorem magOf_nonneg (m2 : F32) : isNaN (magOf m2) = false ∧ (magOf m2).msb = false := by
  cases hfin : isFinite m2 with
  | true =>
    have hn := isNaN_of_isFinite hfin
    rw [magOf_of_isFinite hfin]
    split
    · exact ⟨by decide, by decide⟩
    · rename_i hle
      exact fsqrt_nonneg hn (msb_of_not_fle_zero hn hle)
  | false =>
    obtain hn | rfl | rfl := not_isFinite_iff.1 hfin
    · rw [magOf_of_isNaN hn]; exact ⟨by decide, by decide⟩
    · exact ⟨by decide, by decide⟩
    · exact ⟨by decide, by decide⟩

/-! ## The empty block (41_goertzel.md R113) -/

/-- The product of a finite number and a zero is a zero. -/
theorem fmul_of_fmag_eq_zero {a b : F32} (ha : isFinite a = true) (hb : isFinite b = true)
    (h : fmag a = 0 ∨ fmag b = 0) : fmul a b = fpack (a.msb != b.msb) 0 := by
  have hprod : units (fmag a) * units (fmag b) = 0 := by
    rcases h with h | h <;> rw [h, units_zero]
    · exact Nat.zero_mul _
    · exact Nat.mul_zero _
  rw [fmul_of_isFinite ha hb, hprod, roundMag_zero (Nat.two_pow_pos 149)]

/-- With both accumulators at rest the squared magnitude is +0.0. -/
theorem magSquared_at_rest {c : F32} (h : isFinite c = true) : magSquared 0 0 c = 0 := by
  have hzero : fmul 0 0 = 0 := by decide +kernel
  rw [magSquared, hzero, fmul_of_fmag_eq_zero (by decide) h (.inl (by decide))]
  cases (0 : F32).msb != c.msb with
  | false => decide +kernel
  | true => decide +kernel

/-! ## Integers as binary32 -/

theorem divNearestEven_mul_right (num den : Nat) {c : Nat} (hc : 0 < c) :
    divNearestEven (num * c) (den * c) = divNearestEven num den := by
  have hup : den * c < 2 * (num % den * c) ↔ den < 2 * (num % den) := by
    rw [← Nat.mul_assoc, Nat.mul_lt_mul_right hc]
  have htie : 2 * (num % den * c) = den * c ↔ 2 * (num % den) = den := by
    rw [← Nat.mul_assoc, Nat.mul_left_inj hc.ne']
  simp only [divNearestEven, Nat.mul_div_mul_right _ _ hc, Nat.mul_mod_mul_right, hup, htie]

/-- Rounding a quotient does not depend on how it is written. -/
theorem roundMag_mul_right (num den : Nat) {c : Nat} (hc : 0 < c) : roundMag (num * c) (den * c) = roundMag num den := by
  rw [roundMag_eq_min, roundMag_eq_min, significand, significand, Nat.mul_div_mul_right _ _ hc, Nat.mul_right_comm,
    divNearestEven_mul_right _ _ hc]

theorem fmag_fofInt {n : Int} : fmag (fofInt n) = roundMag (n.natAbs * 2 ^ 149) 1 := fmag_fpack (roundMag_lt_sign _ _)

theorem msb_fofInt {n : Int} : (fofInt n).msb = decide (n < 0) := msb_fpack_roundMag _ _ _

theorem units_fmag_fofInt {n : Int} (h : n.natAbs ≤ 2 ^ 24) : units (fmag (fofInt n)) = n.natAbs * 2 ^ 149 := by
  obtain ⟨-, hunits⟩ := roundMag_integer_exact h
  rw [fmag_fofInt, hunits]

/-- Adding a zero to an integer leaves it, except that a negative one might be -0.0. -/
theorem fadd_of_values {a b : F32} {n : Int} (ha : isFinite a = true) (hb : isFinite b = true)
    (hsum : fval a + fval b = n * 2 ^ 149) (hsign : (a.msb && b.msb) = true → n < 0) : fadd a b = fofInt n := by
  have hscale : (0 : Int) < 2 ^ 149 := by positivity
  have hneg : n * 2 ^ 149 < 0 ↔ n < 0 := by omega
  rw [fadd_of_isFinite ha hb, hsum, Int.natAbs_mul, fofInt]
  congr 1
  by_cases hn : n = 0
  · subst hn
    cases hm : a.msb && b.msb with
    | true => exact absurd (hsign hm) (lt_irrefl 0)
    | false => simp
  · rw [if_neg (mul_ne_zero hn hscale.ne')]
    simp only [hneg]

/-- The square of an integer. -/
theorem fmul_fofInt_self {n : Int} (h : n.natAbs ≤ 2 ^ 24) : fmul (fofInt n) (fofInt n) = fofInt (n * n) := by
  rw [fmul_of_isFinite (isFinite_fofInt h) (isFinite_fofInt h), units_fmag_fofInt h, bne_self_eq_false, fofInt,
    decide_eq_false (not_lt.2 (mul_self_nonneg n)), Int.natAbs_mul,
    show n.natAbs * 2 ^ 149 * (n.natAbs * 2 ^ 149) = n.natAbs * n.natAbs * 2 ^ 149 * 2 ^ 149 by ring]
  have hround := roundMag_mul_right (n.natAbs * n.natAbs * 2 ^ 149) 1 (Nat.two_pow_pos 149)
  rw [Nat.one_mul] at hround
  rw [hround]

/-- The root of a square of an integer is its magnitude. -/
theorem fsqrt_fofInt_mul_self {n : Int} (h : (n * n).natAbs ≤ 2 ^ 24) : fsqrt (fofInt (n * n)) = fofInt n.natAbs := by
  have hfin := isFinite_fofInt h
  have hmsb : (fofInt (n * n)).msb = false := by rw [msb_fofInt, decide_eq_false (not_lt.2 (mul_self_nonneg n))]
  have hradicand : radicand (fofInt (n * n)) = n.natAbs * 2 ^ 149 * (n.natAbs * 2 ^ 149) := by
    rw [radicand, units_fmag_fofInt h, Int.natAbs_mul]
    ring
  obtain ⟨hlo, hhi⟩ := isqrt_radicand hfin
  have hroot : isqrt (radicand (fofInt (n * n))) = n.natAbs * 2 ^ 149 := by
    rw [hradicand] at hlo hhi ⊢
    exact Nat.le_antisymm (Nat.mul_self_le_mul_self_iff.1 hlo) (Nat.le_of_lt_succ (Nat.mul_self_lt_mul_self_iff.1 hhi))
  rw [fsqrt_eq_fpack hfin hmsb, rootMag, hroot, if_pos hradicand.symm, fofInt]
  rfl

/-! ## The one-sample block (41_goertzel.md R114) -/

/-- The bound 4096 keeps the square an exact integer. -/
theorem natAbs_mul_self_le {n : Int} (h : n.natAbs ≤ 4096) : (n * n).natAbs ≤ 2 ^ 24 := by
  rw [Int.natAbs_mul]
  exact (Nat.mul_le_mul h h).trans (by decide)

/-- The squared magnitude of one sample at COEFF 0.0: the products with the coefficient and with Q2 are zeros. -/
theorem magSquared_of_one_sample {n : Int} (h : n.natAbs ≤ 4096) : magSquared (fofInt n) 0 0 = fofInt (n * n) := by
  have hn : n.natAbs ≤ 2 ^ 24 := h.trans (by decide)
  have hsq := natAbs_mul_self_le h
  have hmsb : (fofInt (n * n)).msb = false := by rw [msb_fofInt, decide_eq_false (not_lt.2 (mul_self_nonneg n))]
  have hsquares : fadd (fmul (fofInt n) (fofInt n)) (fmul 0 0) = fofInt (n * n) := by
    rw [fmul_fofInt_self hn, show fmul 0 0 = 0 by decide +kernel]
    refine fadd_of_values (isFinite_fofInt hsq) (by decide) ?_ (by simp [hmsb])
    rw [fval_fofInt hsq, show fval 0 = 0 by decide, add_zero]
  have hproduct : ∃ neg, fmul (fmul (fofInt n) 0) 0 = fpack neg 0 := by
    rw [fmul_of_fmag_eq_zero (isFinite_fofInt hn) (by decide) (.inr (by decide))]
    exact ⟨_, fmul_of_fmag_eq_zero (isFinite_fpack (by decide)) (by decide) (.inr (by decide))⟩
  obtain ⟨neg, hneg⟩ := hproduct
  have hzero : isFinite (fpack neg 0) = true := isFinite_fpack (by decide)
  rw [magSquared, hsquares, hneg, fsub_eq_fadd_fneg]
  · refine fadd_of_values (isFinite_fofInt hsq) ((isFinite_fneg _).trans hzero) ?_ (by simp [hmsb])
    rw [fval_fofInt hsq, fval_fneg, fval_fpack (by decide), units_zero]
    simp
  · rw [isNaN_fsub_eq]
    exact isNaN_fadd_of_isFinite (isFinite_fofInt hsq) ((isFinite_fneg _).trans hzero)

theorem magOf_fofInt_mul_self {n : Int} (h : n.natAbs ≤ 4096) : magOf (fofInt (n * n)) = fofInt n.natAbs := by
  have hsq := natAbs_mul_self_le h
  rw [magOf_of_isFinite (isFinite_fofInt hsq)]
  split
  · rename_i hle
    have hn : n = 0 := by
      obtain ⟨-, -, hkey⟩ := fle_iff.1 hle
      rw [fkey_le_iff, fval_fofInt hsq, show fval 0 = 0 by decide] at hkey
      have hpos : 0 ≤ n * n := mul_self_nonneg n
      exact mul_self_eq_zero.1 (by omega)
    subst hn
    decide
  · exact fsqrt_fofInt_mul_self hsq

/-- The filter's first step from rest at COEFF 0.0 puts the sample in Q1. -/
theorem filterStep_from_rest {n : Int} (h : n.natAbs ≤ 2 ^ 24) : fadd (fsub (fmul 0 0) 0) (fofInt n) = fofInt n := by
  rw [show fsub (fmul 0 0) 0 = 0 by decide +kernel]
  refine fadd_of_values (by decide) (isFinite_fofInt h) ?_ (by simp)
  rw [fval_fofInt h, show fval 0 = 0 by decide, zero_add]

/-! ## The speed estimate at a constant unit (43_timing_classifier.md R141) -/

section
variable {sym : Symbol} {h : U32}

theorem toNat_speedUpdate_wpm (hum : 1 ≤ unitMillis sym h) (s : State) :
    (speedUpdate sym h s).wpm.toNat = (s.wpm.toNat + 1200 / unitMillis sym h) / 2 :=
  ((speedUpdate_spedFrom sym h s).1 hum).1

/-- Each update halves the distance to the target, rounding it up, so that it does not go below 1. -/
theorem speedUpdate_distance (hum : 1 ≤ unitMillis sym h) {s : State} {d : Nat}
    (hd : s.wpm.toNat + d = 1200 / unitMillis sym h) :
    (speedUpdate sym h s).wpm.toNat + (d + 1) / 2 = 1200 / unitMillis sym h := by
  rw [toNat_speedUpdate_wpm hum]
  omega

/-- From a distance of at least 1 and at most 2^k, `k` updates reach the distance 1. -/
theorem iterate_speedUpdate_distance (hum : 1 ≤ unitMillis sym h) (k : Nat) {s : State} {d : Nat}
    (hd : s.wpm.toNat + d = 1200 / unitMillis sym h) (hpos : 1 ≤ d) (hle : d ≤ 2 ^ k) :
    ((speedUpdate sym h)^[k] s).wpm.toNat + 1 = 1200 / unitMillis sym h := by
  induction k generalizing s d with
  | zero => rw [pow_zero] at hle; rw [Function.iterate_zero_apply]; omega
  | succ k ih =>
    rw [Function.iterate_succ_apply]
    rw [pow_succ] at hle
    exact ih (speedUpdate_distance hum hd) (by omega) (by omega)

end

/-! ## The obligations -/

/-- Settles O36: MAG is `magOf` of the squared magnitude, whatever that is. -/
theorem magnitudeNeverNegative : Obligations.MagnitudeNeverNegative := by
  intro now s
  refine ⟨_, exec_blkend now s, ?_⟩
  obtain ⟨hmag, -⟩ := pipelinePass_filter now s
  rw [hmag]
  obtain ⟨hn, hm⟩ := magOf_nonneg (magSquared s.q1 s.q2 s.coeff)
  exact ⟨hn, hm, fge_zero_of_msb_false hn hm⟩

/-- Settles O37: a block without a sample is at rest, so its squared magnitude is +0.0. -/
theorem emptyBlockHasZeroMagnitude : Obligations.EmptyBlockHasZeroMagnitude := by
  intro now s hs hscnt
  refine ⟨_, exec_blkend now s, ?_⟩
  obtain ⟨hq1, hq2⟩ := hs.atRest hscnt
  have hm2 : magSquared s.q1 s.q2 s.coeff = 0 := by rw [hq1, hq2]; exact magSquared_at_rest hs.coeff.1
  have hfin : isFinite (magSquared s.q1 s.q2 s.coeff) = true := by rw [hm2]; decide
  obtain ⟨hmag, -⟩ := pipelinePass_filter now s
  refine ⟨?_, pipelinePass_errNum_of_isFinite now hfin⟩
  rw [hmag, hm2]
  decide

/-- Settles O38: Q1 is the sample, the squared magnitude its square, and MAG the root of that. -/
theorem oneSampleBlockMagnitudeExact : Obligations.OneSampleBlockMagnitudeExact := by
  intro x now s hcoeff hq1 hq2 hx
  refine ⟨_, _, rfl, exec_blkend now _, ?_⟩
  have hx24 : x.toInt.natAbs ≤ 2 ^ 24 := hx.trans (by decide)
  have hm2 : magSquared (goertzelStep x s).q1 (goertzelStep x s).q2 (goertzelStep x s).coeff =
      fofInt (x.toInt * x.toInt) := by
    simp only [goertzelStep, hcoeff, hq1, hq2, sampleValue]
    rw [filterStep_from_rest hx24, magSquared_of_one_sample hx]
  have hsq := natAbs_mul_self_le hx
  have hmag : (pipelinePass now (goertzelStep x s)).mag = fofInt x.toInt.natAbs := by
    obtain ⟨hmag, -⟩ := pipelinePass_filter now (goertzelStep x s)
    rw [hmag, hm2, magOf_fofInt_mul_self hx]
  obtain ⟨herr, -⟩ := pipelinePass_errNum_of_isFinite now (s := goertzelStep x s)
    (by rw [hm2]; exact isFinite_fofInt hsq)
  rw [hmag]
  exact ⟨rfl, fval_fofInt ((Int.natAbs_natCast _).trans_le hx24), herr⟩

/-- Settles O40: the new THR is the average raised to the floor; below the floor the average is the old THR. -/
theorem thresholdNeverBelowFloor : Obligations.ThresholdNeverBelowFloor := by
  intro now s hfloor
  refine ⟨_, exec_blkend now s, ?_⟩
  obtain ⟨-, -, -, -, htfloor, -⟩ := pipelinePass_keeps_host now s
  rw [htfloor, pipelinePass_thr, thresholdUpdate_thr, goertzelFinish_tfloor, thresholdAverage_goertzelFinish now]
  refine ⟨fge_raisedThreshold hfloor, fun hthr hmag => ?_⟩
  rw [if_neg (Bool.eq_false_iff.1 hmag), raisedThreshold_of_fge hthr]

/-- Settles O52: an update is the mean of the estimate and the target, so the distance from below is halved each time. -/
theorem speedEstimateConverges : Obligations.SpeedEstimateConverges := by
  intro sym h hum hum' c
  have hc : 1 ≤ c := (Nat.one_le_div_iff hum).2 hum'
  have hc' : c ≤ 1200 := Nat.div_le_self _ _
  have hwpm (s : State) : (speedUpdate sym h s).wpm.toNat = (s.wpm.toNat + c) / 2 := toNat_speedUpdate_wpm hum s
  refine ⟨fun s k hs hk => ?_, fun s hs => ?_, fun s hs => ?_, fun s hs => ?_⟩
  case refine_1 =>
    have hpow : 2 ^ 11 ≤ 2 ^ k := Nat.pow_le_pow_right Nat.two_pos hk
    have hd : s.wpm.toNat + c = c := by rw [hs]; exact Nat.zero_add c
    have hend : ((speedUpdate sym h)^[k] s).wpm.toNat + 1 = c := iterate_speedUpdate_distance hum k hd hc (by omega)
    omega
  all_goals
    rw [hwpm]
    omega

end Sys2Proof.Machine
end

section
/-! PROOFS. The invariants of the registers (10_state.md R42), of the outputs (44_symbol_decoder.md R165,
45_gain_controller.md R185) and of the fault mark (60_exceptions.md R209): the reset state meets them, and taking an input, a reset, an illegal
word and each command keep them, so every step does. -/
namespace Sys2Proof

namespace Machine

/-! ## Ranges that the shared operations keep -/

theorem toNat_clampU32_mem {lo hi : U32} (h : lo.toNat ≤ hi.toNat) (v : U32) :
    lo.toNat ≤ (clampU32 lo hi v).toNat ∧ (clampU32 lo hi v).toNat ≤ hi.toNat := by
  rw [toNat_clampU32]
  omega

theorem toNat_clampInt_mem {lo hi : U32} (h : lo.toNat ≤ hi.toNat) (v : Int) :
    lo.toNat ≤ (clampInt lo hi v).toNat ∧ (clampInt lo hi v).toNat ≤ hi.toNat := by
  have hclamp := toNat_clampInt lo hi v
  omega

section
variable {s t : State}

/-- The buffer stays in its capacity, with one duration for each symbol. -/
theorem PassOutcome.buffer {now : U32} (h : PassOutcome now s t) (hlen : s.code.length ≤ 7)
    (hdur : s.dur.length = s.code.length) : t.code.length ≤ 7 ∧ t.dur.length = t.code.length := by
  cases h with
  | kept hc hd => rw [hc, hd]; exact ⟨hlen, hdur⟩
  | flushed hc hd => rw [hc, hd]; exact ⟨Nat.zero_le _, rfl⟩
  | wordEnded hc hd => rw [hc, hd]; exact ⟨Nat.zero_le _, rfl⟩
  | symbol sym d happ =>
    obtain ⟨hfull, hroom⟩ := happ
    by_cases h7 : s.code.length = 7
    · obtain ⟨hc, hd⟩ := hfull h7
      rw [hc, hd]
      exact ⟨Nat.zero_le _, rfl⟩
    · obtain ⟨hc, hd⟩ := hroom h7
      simp only [hc, hd, List.length_append, List.length_cons, List.length_nil]
      omega

/-- A commit of the block size is a clamp, and an estimate is the mean of two that are at most 1200. -/
theorem PassOutcome.speed {now : U32} (h : PassOutcome now s t) (hwpm : s.wpm.toNat ≤ 1200)
    (hmin : s.nbmin.toNat ≤ s.cfg.nbMax.toNat) (hnbs : s.nbmin.toNat ≤ s.nbs.toNat ∧ s.nbs.toNat ≤ s.cfg.nbMax.toNat) :
    t.wpm.toNat ≤ 1200 ∧ s.nbmin.toNat ≤ t.nbs.toNat ∧ t.nbs.toNat ≤ s.cfg.nbMax.toNat := by
  cases h with
  | kept _ _ _ _ hw hn | flushed _ _ _ _ hw hn | wordEnded _ _ _ _ hw hn => rw [hw, hn]; exact ⟨hwpm, hnbs⟩
  | symbol sym d _ _ _ hsped =>
    obtain ⟨hupdated, hskipped⟩ := hsped
    rcases Nat.eq_zero_or_pos (unitMillis sym d) with hum | hum
    · obtain ⟨hw, hn, -⟩ := hskipped hum
      rw [hw, hn]
      exact ⟨hwpm, hnbs⟩
    · obtain ⟨hw, hfar, hnear⟩ := hupdated hum
      have htarget : 1200 / unitMillis sym d ≤ 1200 := Nat.div_le_self _ _
      refine ⟨by omega, ?_⟩
      by_cases hc : 2 < (max (s.nbmin.toNat : Int) (min (s.cfg.nbMax.toNat : Int)
          ((1290 - 20 * (t.wpm.toNat : Int)) / 9)) - s.nbs.toNat).natAbs
      · obtain ⟨hn, -⟩ := hfar hc
        omega
      · obtain ⟨hn, -⟩ := hnear hc
        rwa [hn]

/-- A correction that changes GAIN emits the value it clamps to. -/
theorem bandCorrection_setGains (now : U32) (s : State) :
    ((bandCorrection now s).gain = s.gain ∧ (bandCorrection now s).setGains = s.setGains) ∨
    (∃ v, (bandCorrection now s).gain = clampInt s.cfg.gainMin s.cfg.gainMax v ∧
      (bandCorrection now s).setGains = s.setGains ++ [clampInt s.cfg.gainMin s.cfg.gainMax v]) := by
  obtain ⟨_, _, hkept⟩ | ⟨_, _, _, -, rfl, hset⟩ := bandCorrection_cases now s
  · rw [hkept]; exact .inl ⟨rfl, rfl⟩
  · rw [hset]; exact .inr ⟨_, rfl, rfl⟩

theorem bandCorrection_gain_mem (now : U32)
    (h : s.cfg.gainMin.toNat ≤ s.gain.toNat ∧ s.gain.toNat ≤ s.cfg.gainMax.toNat) :
    s.cfg.gainMin.toNat ≤ (bandCorrection now s).gain.toNat ∧ (bandCorrection now s).gain.toNat ≤ s.cfg.gainMax.toNat := by
  obtain ⟨_, _, hkept⟩ | ⟨_, _, _, -, rfl, hset⟩ := bandCorrection_cases now s
  · rw [hkept]; exact h
  · rw [hset]; exact toNat_clampInt_mem (h.1.trans h.2) _

theorem bandCorrection_lcnt_le (now : U32) : (bandCorrection now s).lcnt.toNat ≤ s.lcnt.toNat := by
  obtain ⟨_, _, hkept⟩ | ⟨_, _, _, -, -, hset⟩ := bandCorrection_cases now s
  · rw [hkept]
  · rw [hset]; exact Nat.zero_le _

/-- The count does not pass LA_N. -/
theorem averaged_lcnt_le (now : U32) (h : s.lcnt.toNat ≤ s.cfg.laN.toNat) :
    (averaged now s).lcnt.toNat ≤ s.cfg.laN.toNat := by
  rw [averaged_lcnt]
  split
  · bv_omega
  · exact h

theorem pipelinePass_marked (now : U32) (h : s.errCmd = true ∨ s.errHaz = true ∨ s.errNum = true → s.faultMark = true) :
    (pipelinePass now s).errCmd = true ∨ (pipelinePass now s).errHaz = true ∨ (pipelinePass now s).errNum = true →
      (pipelinePass now s).faultMark = true := by
  obtain ⟨hcmd, hhaz, -⟩ := pipelinePass_errors now s
  cases hfin : isFinite (magSquared s.q1 s.q2 s.coeff) with
  | true =>
    obtain ⟨hnum, hmark⟩ := pipelinePass_errNum_of_isFinite now hfin
    rwa [hcmd, hhaz, hnum, hmark]
  | false => exact fun _ => (pipelinePass_errNum_of_not_isFinite now hfin).2

end

end Machine

namespace Safety

open Machine

/-! ## Legal parameters (00_scope.md R6, as assumption 10 reads it) -/

/-- What the invariants use of legal parameters. -/
structure ParamsInRange (p : Params) : Prop where
  tfloor : isFinite p.tfloorReset = true ∧ p.tfloorReset.msb = false
  react : 1 ≤ p.reactReset.toNat ∧ p.reactReset.toNat ≤ 255
  hold : p.holdReset.toNat ≤ p.holdMax.toNat
  nbmin : 1 ≤ p.nbminReset.toNat ∧ p.nbminReset.toNat ≤ p.nbMax.toNat
  gain : p.gainMin.toNat ≤ p.gainReset.toNat ∧ p.gainReset.toNat ≤ p.gainMax.toNat
  lut : ∀ e ∈ p.charLut, e.code ≠ 0x20

theorem paramsInRange_of_paramsOk {p : Params} (h : paramsOk p = true) : ParamsInRange p := by
  simp only [paramsOk, Bool.and_eq_true, decide_eq_true_eq, Bool.not_eq_true', List.all_eq_true] at h
  obtain ⟨⟨⟨⟨⟨⟨⟨⟨⟨⟨⟨⟨⟨⟨⟨⟨⟨⟨⟨⟨hfin, -⟩, hmsb⟩, hreact⟩, hreact'⟩, hhold⟩, hnbmin⟩, hnbmax⟩, hgain⟩, hgain'⟩, -⟩, -⟩, -⟩, -⟩, -⟩,
    -⟩, -⟩, -⟩, -⟩, hlut⟩, -⟩ := h
  refine ⟨⟨hfin, hmsb⟩, ⟨hreact, hreact'⟩, hhold, ⟨hnbmin, hnbmax⟩, ⟨hgain, hgain'⟩, fun e he => ?_⟩
  have hentry := hlut e he
  simp only [lutEntryOk, Bool.and_eq_true, decide_eq_true_eq] at hentry
  exact hentry.2

/-! ## The registers (10_state.md R42) -/

/-- A reset gives registers in range, whatever stays of the inputs and of the mark. -/
theorem registersInRange_resetWith {p : Params} (h : paramsOk p = true) (level : Bool) (port : List PortInput)
    (mark : Bool) : RegistersInRange { State.resetWith p with rst := level, port := port, faultMark := mark } := by
  obtain ⟨htfloor, hreact, hhold, hnbmin, hgain, -⟩ := paramsInRange_of_paramsOk h
  exact {
    params := h
    threshold := fge_self (isNaN_of_isFinite htfloor.1)
    codeLength := Nat.zero_le _
    durLength := rfl
    react := hreact
    hold := hhold
    sf10 := by simp [State.resetWith, sf10Reset]
    nbmin := hnbmin
    nbs := toNat_clampU32_mem hnbmin.2 143
    gain := hgain
    lcnt := Nat.zero_le _
    coeff := by simp only [State.resetWith]; decide
    tfloor := htfloor
    wpm := Nat.zero_le _
    mag := by simp only [State.resetWith]; decide
    atRest := fun _ => ⟨rfl, rfl⟩
    marked := by simp [State.resetWith] }

section
variable {s t : State}

/-- What has no range may change at will, and the error bits as far as they set the mark. -/
theorem RegistersInRange.withFlags (h : RegistersInRange s) {cmd haz num mark : Bool}
    (hmark : cmd = true ∨ haz = true ∨ num = true → mark = true) (scan autotune diag chg : Bool) (port : List PortInput)
    (responses : List U32) :
    RegistersInRange { s with errCmd := cmd, errHaz := haz, errNum := num, faultMark := mark, scan := scan,
                              autotune := autotune, diag := diag, nbsChg := chg, port := port, responses := responses } :=
  { h with marked := hmark }

theorem RegistersInRange.flag (h : RegistersInRange s) (e : ErrorBit) : RegistersInRange (s.flag e) := by
  cases e with
  | cmd => exact h.withFlags (fun _ => rfl) _ _ _ _ _ _
  | haz => exact h.withFlags (fun _ => rfl) _ _ _ _ _ _
  | num => exact h.withFlags (fun _ => rfl) _ _ _ _ _ _

theorem RegistersInRange.respond (h : RegistersInRange s) (v : U32) : RegistersInRange (s.respond v) :=
  h.withFlags h.marked _ _ _ _ _ _

/-- A STATUS write clears bits and sets none. -/
theorem RegistersInRange.clearSticky (h : RegistersInRange s) (v : U32) : RegistersInRange (s.clearSticky v) := by
  refine h.withFlags (fun hset => h.marked ?_) _ _ _ _ _ _
  simp only [Bool.and_eq_true] at hset
  exact hset.imp And.left (Or.imp And.left And.left)

theorem RegistersInRange.written {v : U32} {r : Reg} (h : RegistersInRange s) (hw : RegWritten v s r t) :
    RegistersInRange t := by
  have hparams := paramsInRange_of_paramsOk h.params
  have hnb : (1 : U32).toNat ≤ s.cfg.nbMax.toNat := hparams.nbmin.1.trans hparams.nbmin.2
  cases hw with
  | ctrl => exact h.withFlags h.marked _ _ _ _ _ _
  | status => exact h.clearSticky v
  | coeffRejected => exact h.flag .cmd
  | coeffStored hn =>
    obtain ⟨-, hlo, hhi⟩ := fclamp_between hn coeffMin_fle_coeffMax
    have hmark : s.errCmd = true ∨ (s.errHaz || decide (s.scnt ≠ 0)) = true ∨ s.errNum = true →
        (s.faultMark || decide (s.scnt ≠ 0)) = true := by
      have hold := h.marked
      rw [Bool.or_eq_true, Bool.or_eq_true]
      tauto
    exact { h with coeff := ⟨isFinite_of_coeff_range hlo hhi, hlo, hhi⟩, marked := hmark }
  | tfloorRejected => exact h.flag .cmd
  | tfloorStored hn hi =>
    have hfin : isFinite (floorValue v) = true := isFinite_floorValue hn hi
    have hmsb : (floorValue v).msb = false := by
      cases hm : v.msb with
      | true => rw [floorValue_of_msb_true hm]; rfl
      | false => rw [floorValue_of_msb_false hm, hm]
    exact { h with threshold := fge_raisedThreshold (isNaN_of_isFinite hfin), tfloor := ⟨hfin, hmsb⟩ }
  | react => exact { h with react := toNat_clampU32_mem (lo := 1) (hi := 255) (by decide) v }
  | hold => exact { h with hold := (toNat_clampU32_mem (lo := 0) (Nat.zero_le _) v).2 }
  | sf10 => exact { h with sf10 := toNat_clampU32_mem (lo := 10) (hi := 100) (by decide) v }
  | nbminRaises =>
    have hclamp := toNat_clampU32_mem hnb v
    exact { h with nbmin := hclamp, nbs := ⟨le_rfl, hclamp.2⟩ }
  | nbminKeeps hle => exact { h with nbmin := toNat_clampU32_mem hnb v, nbs := ⟨hle, h.nbs.2⟩ }
  | gain => exact { h with gain := toNat_clampU32_mem (hparams.gain.1.trans hparams.gain.2) v, lcnt := Nat.zero_le _ }
  | readOnly => exact h

/-- After a SAMPLE the block is open. -/
theorem RegistersInRange.sample (h : RegistersInRange s) (x : I16) : RegistersInRange (goertzelStep x s) := by
  refine { h with atRest := fun hscnt => ?_ }
  have hpos : (sat32 (s.scnt.toNat + 1)).toNat = 0 := congrArg BitVec.toNat hscnt
  rw [toNat_sat32] at hpos
  omega

/-! ### The pass -/

theorem RegistersInRange.pass (h : RegistersInRange s) (now : U32) : RegistersInRange (pipelinePass now s) := by
  obtain ⟨hcfg, -, -, hcoeff, htfloor, hreact, hhold, hsf10, hnbmin⟩ := pipelinePass_keeps_host now s
  obtain ⟨hmag, hq1, hq2, -⟩ := pipelinePass_filter now s
  obtain ⟨hgain, -, -, -, hcfg'⟩ := averaged_keeps_gain now s
  obtain ⟨hcode, hdur⟩ := (pipelinePass_outcome now s).buffer h.codeLength h.durLength
  obtain ⟨hwpm, hnbs⟩ := (pipelinePass_outcome now s).speed h.wpm h.nbmin.2 h.nbs
  have hthr : fge (pipelinePass now s).thr s.tfloor = true := by
    rw [pipelinePass_thr, thresholdUpdate_thr, goertzelFinish_tfloor]
    exact fge_raisedThreshold (isNaN_of_isFinite h.tfloor.1)
  have hgains := bandCorrection_gain_mem (s := averaged now s) now (by rw [hgain, hcfg']; exact h.gain)
  rw [hcfg', ← pipelinePass_eq_bandCorrection] at hgains
  have hlcnt := (bandCorrection_lcnt_le (s := averaged now s) now).trans (averaged_lcnt_le now h.lcnt)
  rw [← pipelinePass_eq_bandCorrection] at hlcnt
  constructor
  case threshold => rwa [htfloor]
  case codeLength => exact hcode
  case durLength => exact hdur
  case wpm => exact hwpm
  case mag => rw [hmag]; exact magOf_nonneg _
  case atRest => exact fun _ => ⟨hq1, hq2⟩
  case marked => exact pipelinePass_marked now h.marked
  case params => rw [hcfg]; exact h.params
  case react => rw [hreact]; exact h.react
  case hold => rw [hhold, hcfg]; exact h.hold
  case sf10 => rw [hsf10]; exact h.sf10
  case nbmin => rw [hnbmin, hcfg]; exact h.nbmin
  case nbs => rw [hnbmin, hcfg]; exact hnbs
  case gain => rw [hcfg]; exact hgains
  case lcnt => rw [hcfg]; exact hlcnt
  case coeff => rw [hcoeff]; exact h.coeff
  case tfloor => rw [htfloor]; exact h.tfloor

/-- Every command keeps the registers in range. -/
theorem RegistersInRange.after (h : RegistersInRange s) (i : Instr) : RegistersInRange (after i s) := by
  cases i with
  | nop => exact h
  | sample x => exact h.sample x
  | blkend now => exact h.pass now
  | wr a v =>
    obtain ⟨-, heq⟩ | ⟨r, -, hw⟩ := after_wr_cases a v s
    · rw [heq]; exact h.flag .cmd
    · exact h.written hw
  | rd a =>
    obtain ⟨-, heq⟩ | ⟨r, -, heq⟩ := after_rd_cases a s
    · rw [heq]; exact (h.flag .cmd).respond 0
    · rw [heq]; exact h.respond _
  | treset now => exact { h with }

end

/-! ## The outputs (44_symbol_decoder.md R165, 45_gain_controller.md R185) -/

/-- Nothing has been emitted since a reset. -/
theorem outputsConsistent_resetWith {p : Params} (hlut : ∀ e ∈ p.charLut, e.code ≠ 0x20)
    (hgain : p.gainMin.toNat ≤ p.gainMax.toNat) (level : Bool) (port : List PortInput) (mark : Bool) :
    OutputsConsistent { State.resetWith p with rst := level, port := port, faultMark := mark } where
  lutNoSpace := hlut
  gainRange := hgain
  lastSpace := by simp [State.resetWith]
  firstEvent := by simp [State.resetWith]
  oneSpace := rfl
  spaceDurs := by simp [State.resetWith]
  gain := rfl
  gainsInRange := by simp [State.resetWith]

section
variable {s t : State}

/-- The invariant speaks of the parameters, LAST_SPACE, the events, GAIN and the gains only. -/
theorem OutputsConsistent.congr (h : OutputsConsistent s) (hcfg : t.cfg = s.cfg) (hspace : t.lastSpace = s.lastSpace)
    (hevents : t.events = s.events) (hgain : t.gain = s.gain) (hset : t.setGains = s.setGains) : OutputsConsistent t := by
  obtain ⟨hlut, hrange, hlast, hfirst, hone, hdurs, hg, hgs⟩ := h
  constructor <;> simpa only [hcfg, hspace, hevents, hgain, hset]

/-- A SetGain of a value in range that GAIN takes. -/
theorem OutputsConsistent.setGain (h : OutputsConsistent s) {g : U32}
    (hg : s.cfg.gainMin.toNat ≤ g.toNat ∧ g.toNat ≤ s.cfg.gainMax.toNat) :
    OutputsConsistent { s with gain := g, setGains := s.setGains ++ [g] } := by
  refine { h with gain := by simp, gainsInRange := fun x hx => ?_ }
  rcases List.mem_append.1 hx with hx | hx
  · exact h.gainsInRange x hx
  · rw [List.mem_singleton.1 hx]; exact hg

theorem noAdjacentSpaces_concat {es : List CharEvent} {e : CharEvent} (h : noAdjacentSpaces es = true)
    (hlast : ∀ l, es.getLast? = some l → l.code = 0x20 → e.code ≠ 0x20) : noAdjacentSpaces (es ++ [e]) = true := by
  induction es with
  | nil => rfl
  | cons a es ih =>
    cases es with
    | nil =>
      have hne := hlast a rfl
      simpa [noAdjacentSpaces, imp_iff_not_or] using hne
    | cons b es =>
      simp only [noAdjacentSpaces, List.cons_append, Bool.and_eq_true] at h ih ⊢
      exact ⟨h.1, ih h.2 hlast⟩

/-- A character that is no space. -/
theorem OutputsConsistent.emitCharacter (h : OutputsConsistent s) {e : CharEvent} (he : e.code ≠ 0x20) :
    OutputsConsistent { s with events := s.events ++ [e], lastSpace := false } := by
  refine { h with
    lastSpace := ⟨fun hf => absurd hf Bool.false_ne_true, fun hl => absurd (hl e List.getLast?_concat) he⟩
    firstEvent := fun x hx => ?_
    oneSpace := noAdjacentSpaces_concat h.oneSpace fun _ _ _ => he
    spaceDurs := fun x hx hcode => ?_ }
  · cases hev : s.events with
    | nil =>
      simp only [hev, List.nil_append, List.head?_cons, Option.some.injEq] at hx
      rwa [← hx]
    | cons y ys =>
      refine h.firstEvent x ?_
      rw [hev] at hx ⊢
      exact hx
  · rcases List.mem_append.1 hx with hx | hx
    · exact h.spaceDurs x hx hcode
    · rw [List.mem_singleton.1 hx] at hcode
      exact absurd hcode he

/-- A space where LAST_SPACE is clear: then a character has been emitted last. -/
theorem OutputsConsistent.emitSpace (h : OutputsConsistent s) (hs : s.lastSpace = false) (now : U32) :
    OutputsConsistent { s with events := s.events ++ [⟨0x20, now, []⟩], lastSpace := true } := by
  have hlast : ¬∀ e, s.events.getLast? = some e → e.code = 0x20 := by
    rw [← h.lastSpace, hs]
    exact Bool.false_ne_true
  obtain ⟨l, hl, hcode⟩ : ∃ l, s.events.getLast? = some l ∧ l.code ≠ 0x20 := by
    simpa only [not_forall, exists_prop] using hlast
  refine { h with
    lastSpace := ⟨fun _ e he => ?_, fun _ => rfl⟩
    firstEvent := fun x hx => ?_
    oneSpace := noAdjacentSpaces_concat h.oneSpace fun l' hl' hspace => ?_
    spaceDurs := fun x hx hspace => ?_ }
  · rw [List.getLast?_concat, Option.some.injEq] at he
    rw [← he]
  · cases hev : s.events with
    | nil => rw [hev] at hl; cases hl
    | cons y ys =>
      refine h.firstEvent x ?_
      rw [hev] at hx ⊢
      exact hx
  · rw [hl, Option.some.injEq] at hl'
    rw [hl'] at hcode
    exact absurd hspace hcode
  · rcases List.mem_append.1 hx with hx | hx
    · exact h.spaceDurs x hx hspace
    · rw [List.mem_singleton.1 hx]

/-- The character of a flush is an entry's code, and no entry is a space. -/
theorem OutputsConsistent.flushed (h : OutputsConsistent s) (now : U32) :
    OutputsConsistent { s with events := s.events ++ flushedEvents now s,
                               lastSpace := s.lastSpace && decide (flushedEvents now s = []) } := by
  obtain hnone | ⟨c, hc, hchar⟩ := flushedEvents_cases now s
  · rw [hnone]
    exact h.congr rfl (by simp) (List.append_nil _) rfl rfl
  · obtain ⟨-, hlookup⟩ := decodeBuffer_eq_some_iff.1 hc
    obtain ⟨e, he, -, -, rfl⟩ := exists_entry_of_lutLookup hlookup
    rw [hchar]
    exact (h.emitCharacter (e := ⟨e.code, now, _⟩) (h.lutNoSpace e he)).congr rfl (by simp) rfl rfl rfl

/-- What a pass makes of the events and LAST_SPACE. -/
theorem OutputsConsistent.outcome (h : OutputsConsistent s) {now : U32} (ho : PassOutcome now s t) :
    OutputsConsistent { s with events := t.events, lastSpace := t.lastSpace } := by
  cases ho with
  | kept _ _ hevents hspace => exact h.congr rfl hspace hevents rfl rfl
  | symbol _ _ _ hevents hspace => exact h.congr rfl hspace hevents rfl rfl
  | flushed _ _ hevents hspace => exact (h.flushed now).congr rfl hspace hevents rfl rfl
  | wordEnded _ _ hevents hspace =>
    have hflushed := h.flushed now
    by_cases hquiet : flushedEvents now s = [] ∧ s.lastSpace = true
    · rw [if_pos hquiet] at hevents
      exact hflushed.congr rfl (by simp [hspace, hquiet]) (hevents.trans (List.append_nil _)) rfl rfl
    · rw [if_neg hquiet] at hevents
      have hclear : (s.lastSpace && decide (flushedEvents now s = [])) = false := by
        rw [Bool.eq_false_iff, ne_eq, Bool.and_eq_true, decide_eq_true_eq, and_comm]
        exact hquiet
      exact (hflushed.emitSpace hclear now).congr rfl hspace hevents rfl rfl

theorem OutputsConsistent.pass (h : OutputsConsistent s) (now : U32) : OutputsConsistent (pipelinePass now s) := by
  obtain ⟨hcfg, -⟩ := pipelinePass_keeps_host now s
  have hevents := h.outcome (pipelinePass_outcome now s)
  obtain ⟨hgain, hset, -, -, hcfg'⟩ := averaged_keeps_gain now s
  have hset' := bandCorrection_setGains now (averaged now s)
  rw [← pipelinePass_eq_bandCorrection, hgain, hset, hcfg'] at hset'
  generalize pipelinePass now s = t at hcfg hevents hset' ⊢
  obtain ⟨hg, hgs⟩ | ⟨v, hg, hgs⟩ := hset'
  · exact hevents.congr hcfg rfl rfl hg hgs
  · exact (hevents.setGain (toNat_clampInt_mem h.gainRange v)).congr hcfg rfl rfl hg hgs

/-- Of the registers a write reaches, only GAIN is one the invariant speaks of. -/
theorem OutputsConsistent.written {v : U32} {r : Reg} (h : OutputsConsistent s) (hw : RegWritten v s r t) :
    OutputsConsistent t := by
  cases hw with
  | gain => exact (h.setGain (toNat_clampU32_mem h.gainRange v)).congr rfl rfl rfl rfl rfl
  | _ => exact h.congr rfl rfl rfl rfl rfl

/-- Every command keeps the outputs consistent: only a GAIN write and a pass write what the invariant speaks of. -/
theorem OutputsConsistent.after (h : OutputsConsistent s) (i : Instr) : OutputsConsistent (after i s) := by
  cases i with
  | nop => exact h
  | sample x => exact h.congr rfl rfl rfl rfl rfl
  | treset now => exact h.congr rfl rfl rfl rfl rfl
  | blkend now => exact h.pass now
  | rd a =>
    obtain ⟨-, heq⟩ | ⟨r, -, heq⟩ := after_rd_cases a s
    · rw [heq]; exact h.congr rfl rfl rfl rfl rfl
    · rw [heq]; exact h.congr rfl rfl rfl rfl rfl
  | wr a v =>
    obtain ⟨-, heq⟩ | ⟨r, -, hw⟩ := after_wr_cases a v s
    · rw [heq]; exact h.congr rfl rfl rfl rfl rfl
    · exact h.written hw

end

/-! ## The fault mark (60_exceptions.md R209) -/

/-- From `s` to `t` the mark is not cleared, and an error bit that appears has set it. -/
structure MarkKept (s t : State) : Prop where
  mark : s.faultMark = true → t.faultMark = true
  cmd : t.errCmd = true → s.errCmd = true ∨ t.faultMark = true
  haz : t.errHaz = true → s.errHaz = true ∨ t.faultMark = true
  num : t.errNum = true → s.errNum = true ∨ t.faultMark = true

section
variable {s t u : State}

theorem MarkKept.refl (s : State) : MarkKept s s := ⟨id, .inl, .inl, .inl⟩

theorem MarkKept.trans (h : MarkKept s t) (h' : MarkKept t u) : MarkKept s u where
  mark := fun hm => h'.mark (h.mark hm)
  cmd := fun hc => (h'.cmd hc).elim (fun ht => (h.cmd ht).imp_right h'.mark) .inr
  haz := fun hc => (h'.haz hc).elim (fun ht => (h.haz ht).imp_right h'.mark) .inr
  num := fun hc => (h'.num hc).elim (fun ht => (h.num ht).imp_right h'.mark) .inr

theorem MarkKept.of_marked (h : t.faultMark = true) : MarkKept s t :=
  ⟨fun _ => h, fun _ => .inr h, fun _ => .inr h, fun _ => .inr h⟩

theorem MarkKept.written {v : U32} {r : Reg} (hw : RegWritten v s r t) : MarkKept s t := by
  cases hw with
  | status =>
    refine ⟨id, fun h => .inl ?_, fun h => .inl ?_, fun h => .inl ?_⟩
    all_goals exact (Bool.and_eq_true_iff.1 h).1
  | coeffRejected | tfloorRejected => exact .of_marked (State.flag_faultMark _ _)
  | coeffStored =>
    refine ⟨fun h => Bool.or_eq_true_iff.2 (.inl h), .inl, fun h => ?_, .inl⟩
    exact (Bool.or_eq_true_iff.1 h).imp_right fun hopen => Bool.or_eq_true_iff.2 (.inr hopen)
  | _ => exact ⟨id, .inl, .inl, .inl⟩

theorem MarkKept.pass (now : U32) (s : State) : MarkKept s (pipelinePass now s) := by
  obtain ⟨hcmd, hhaz, -⟩ := pipelinePass_errors now s
  cases hfin : isFinite (magSquared s.q1 s.q2 s.coeff) with
  | true =>
    obtain ⟨hnum, hmark⟩ := pipelinePass_errNum_of_isFinite now hfin
    exact ⟨hmark.trans, fun h => .inl (hcmd.symm.trans h), fun h => .inl (hhaz.symm.trans h),
      fun h => .inl (hnum.symm.trans h)⟩
  | false => exact .of_marked (pipelinePass_errNum_of_not_isFinite now hfin).2

theorem MarkKept.after (i : Instr) (s : State) : MarkKept s (after i s) := by
  cases i with
  | nop => exact .refl s
  | sample x => exact ⟨id, .inl, .inl, .inl⟩
  | treset now => exact ⟨id, .inl, .inl, .inl⟩
  | blkend now => exact .pass now s
  | rd a =>
    obtain ⟨-, heq⟩ | ⟨r, -, heq⟩ := after_rd_cases a s
    · rw [heq]; exact .of_marked rfl
    · rw [heq]; exact ⟨id, .inl, .inl, .inl⟩
  | wr a v =>
    obtain ⟨-, heq⟩ | ⟨r, -, hw⟩ := after_wr_cases a v s
    · rw [heq]; exact .of_marked rfl
    · exact .written hw

/-- A reset clears the error bits and keeps the mark. -/
theorem MarkKept.reset (s : State) (level : Bool) : MarkKept s (s.resetInput level) :=
  ⟨id, fun h => absurd h Bool.false_ne_true, fun h => absurd h Bool.false_ne_true, fun h => absurd h Bool.false_ne_true⟩

end

/-! ## The obligations -/

/-- Settles O16: a reset gives registers in range, and an illegal word and every command keep them there. -/
theorem stepKeepsRegistersInRange : Obligations.StepKeepsRegistersInRange := fun _ _ hs hstep =>
  step_preserves (P := RegistersInRange) (fun _ _ h => { h with })
    (fun s level h => registersInRange_resetWith h.params level s.port s.faultMark) (fun _ h => h.flag .cmd)
    (fun i _ h => h.after i) hs hstep

/-- Settles O17: a reset empties the record, an illegal word leaves it, and every command keeps it consistent. -/
theorem stepKeepsOutputsConsistent : Obligations.StepKeepsOutputsConsistent := fun _ _ hs hstep =>
  step_preserves (P := OutputsConsistent) (fun _ _ h => { h with })
    (fun s level h => outputsConsistent_resetWith h.lutNoSpace h.gainRange level s.port s.faultMark)
    (fun _ h => h.congr rfl rfl rfl rfl rfl) (fun i _ h => h.after i) hs hstep

/-- Settles O18: whatever a step does keeps the mark. -/
theorem faultMarkNeverCleared : Obligations.FaultMarkNeverCleared := by
  intro s t hstep
  have hkept : MarkKept s t := step_preserves (P := MarkKept s) (fun _ _ h => { h with })
    (fun u level h => h.trans (.reset u level)) (fun _ h => h.trans (.of_marked (State.flag_faultMark _ _)))
    (fun i u h => h.trans (.after i u)) (.refl s) hstep
  exact ⟨hkept.mark, hkept.cmd, hkept.haz, hkept.num⟩

/-- Settles O14: each register at its reset value; STATUS reads LAST_SPACE alone, since LCNT = 0 is below LA_N. -/
theorem resetStateComplete : Obligations.ResetStateComplete := by
  intro p hlaN s
  have hunsettled : settled s = false := by
    refine decide_eq_false fun h : 0 = p.laN => ?_
    rw [← h] at hlaN
    exact absurd hlaN (by decide)
  have hnbs : s.nbs.toNat = max p.nbminReset.toNat (min p.nbMax.toNat 143) := toNat_clampU32 _ _ _
  have hstatus : statusImage s = 0x100 := by
    rw [statusImage, hunsettled]
    simp [s, State.resetWith, toneBit]
  refine ⟨rfl, rfl, rfl, rfl, rfl, rfl, rfl, rfl, rfl, rfl, rfl, rfl, rfl, rfl, rfl, rfl, rfl, rfl, rfl, rfl, rfl, rfl,
    rfl, rfl, rfl, rfl, rfl, rfl, rfl, rfl, hnbs, rfl, rfl, rfl, rfl, rfl, rfl, rfl, rfl, ?_⟩
  rw [exec_rd_mapped (r := .status) rfl, readReg, hstatus]
  rfl

/-- Settles O15: the invariants at reset for legal parameters, of which TC0 is an example. -/
theorem resetMeetsInvariants : Obligations.ResetMeetsInvariants := by
  have hreset : ∀ p, paramsOk p = true →
      RegistersInRange (State.resetWith p) ∧ OutputsConsistent (State.resetWith p) := by
    intro p hp
    have hparams := paramsInRange_of_paramsOk hp
    exact ⟨registersInRange_resetWith hp false [] false,
      outputsConsistent_resetWith hparams.lut (hparams.gain.1.trans hparams.gain.2) false [] false⟩
  exact ⟨hreset, hreset tc0 (by decide +kernel)⟩

end Safety

end Sys2Proof
end

section
/-! PROOFS. What the duties of the host amount to over a run (70_reset_and_hazards.md R224 to R227, R230): how each command
moves them, what a run keeps of them, and which commands of the run made them so. -/
namespace Sys2Proof

namespace Machine

theorem RegWritten.keeps_nbsChg {v : U32} {s t : State} {r : Reg} (h : RegWritten v s r t)
    (hv : r = .status → v.getLsbD 6 = false) (hs : s.nbsChg = true) : t.nbsChg = true := by
  cases h with
  | status => rw [State.clearSticky_nbsChg, hs, hv rfl]; rfl
  | coeffRejected | tfloorRejected => rwa [State.flag_nbsChg]
  | nbminRaises => rfl
  | _ => exact hs

end Machine

namespace Safety

open Machine

section
variable {d : Duty} {s : State} {i : Instr} {is : List Instr}

/-! ## Runs -/

/-- What every command of a run keeps, the run keeps. -/
theorem run_keeps {P : Duty → State → Prop} (hkeep : ∀ i ∈ is, ∀ d s, P d s → P (d.next s i) (after i s)) (h : P d s) :
    P (d.nextAll s is) (afterAll is s) := by
  induction is generalizing d s with
  | nil => exact h
  | cons i is ih =>
    exact ih (fun j hj => hkeep j (List.mem_cons_of_mem i hj)) (hkeep i List.mem_cons_self d s h)

/-- What every command keeps when it joins the commands already run, a run keeps. -/
theorem run_traces {P : Duty → List Instr → Prop} (hstep : ∀ d s is i, P d is → P (d.next s i) (is ++ [i]))
    {ran : List Instr} (h : P d ran) : P (d.nextAll s is) (ran ++ is) := by
  induction is generalizing d s ran with
  | nil => rwa [List.append_nil]
  | cons i is ih =>
    rw [List.append_cons ran i is]
    exact ih (hstep d s ran i h)

/-- The last command of a dutiful run keeps the duties that the run before it left. -/
theorem keepsDuty_of_dutiful_concat (h : dutiful d s (is ++ [i]) = true) :
    keepsDuty (d.nextAll s is) (afterAll is s) i = true := by
  rw [dutiful_append, Bool.and_eq_true] at h
  exact (Bool.and_eq_true_iff.1 h.2).1

theorem nextAll_append_cons (before between : List Instr) : d.nextAll s (before ++ i :: between) =
    ((d.nextAll s before).next (afterAll before s) i).nextAll (after i (afterAll before s)) between :=
  nextAll_append d s before (i :: between)

theorem afterAll_append_cons (before between : List Instr) : afterAll (before ++ i :: between) s =
    afterAll between (after i (afterAll before s)) :=
  afterAll_append before (i :: between) s

/-! ## What each command does to the duties -/

/-- The first SAMPLE of a block. -/
theorem readyForBlock_of_keepsDuty {x : I16} (h : keepsDuty d s (.sample x) = true) (hs : s.scnt = 0) :
    d.boot = .done ∧ s.nbsChg = false ∧ d.sizeRead = some s.nbs ∧ d.tunedFor = some s.nbs := by
  simp only [keepsDuty, if_pos hs, readyForBlock, Bool.and_eq_true, decide_eq_true_eq, Bool.not_eq_true'] at h
  obtain ⟨⟨⟨⟨hboot, hchg⟩, hsize⟩, htuned⟩, -⟩ := h
  exact ⟨hboot, hchg, hsize, htuned⟩

theorem scanLeft_of_keepsDuty {x : I16} (h : keepsDuty d s (.sample x) = true) :
    d.timingStale = false ∧ d.toneStale = false := by
  obtain ⟨-, hleft⟩ := Bool.and_eq_true_iff.1 h
  simpa only [scanLeft, Bool.and_eq_true, Bool.not_eq_true'] using hleft

/-- The duties after a WR: those of its register, and at an unmapped index as before. -/
theorem next_wr_cases (d : Duty) (s : State) (a : Byte) (v : U32) :
    d.next s (.wr a v) = d ∨
    ∃ r, a = regIndex r ∧ d.next s (.wr a v) = d.nextWr s (after (.wr a v) s) v r := by
  match h : regOfIndex a with
  | none => exact .inl (by simp only [Duty.next, h])
  | some r => exact .inr ⟨r, eq_regIndex_of_regOfIndex h, by simp only [Duty.next, h]⟩

theorem next_wr_ctrl (d : Duty) (s : State) (v : U32) (hs : s.scan = true) (hv : v.getLsbD 0 = false) :
    d.next s (.wr (regIndex .ctrl) v) = { d with timingStale := true, toneStale := !d.tunedSinceSample } := by
  have hreg : regOfIndex (regIndex .ctrl) = some .ctrl := rfl
  simp only [Duty.next, hreg, Duty.nextWr, hs, hv, Bool.not_false, Bool.and_self, if_true]

/-- `DutyMoved d i e`: the command `i` takes the boot sequence and the duties of a scan from those of `d` to those of `e`. -/
inductive DutyMoved (d : Duty) : Instr → Duty → Prop
  | kept {i : Instr} {e : Duty} (hboot : e.boot = d.boot) (htiming : e.timingStale = d.timingStale)
      (htuned : e.tunedSinceSample = d.tunedSinceSample) (htone : e.toneStale = d.toneStale) : DutyMoved d i e
  | sampled (x : I16) (b : Option U32) : DutyMoved d (.sample x) { d with tunedSinceSample := false, blockSize := b }
  | timed (now : U32) : DutyMoved d (.treset now) { d with lastNow := some now, timingStale := false }
  | tuned (c : F32) (hc : isNaN c = false) : DutyMoved d (.wr (regIndex .coeff) c)
      { d with tunedFor := d.sizeRead, tunedSinceSample := true, toneStale := false }
  | scanLeft (v : U32) : DutyMoved d (.wr (regIndex .ctrl) v)
      { d with timingStale := true, toneStale := !d.tunedSinceSample }
  | driven (g : U32) (ht : d.tunedFor.isSome = true) : DutyMoved d (.wr (regIndex .gain) g) { d with boot := .gainDriven }
  | cleared (v : U32) (hv : v &&& 0x78 = 0x78) (hb : d.boot = .gainDriven) : DutyMoved d (.wr (regIndex .status) v)
      { d with boot := .done }

theorem DutyMoved.refl (d : Duty) (i : Instr) : DutyMoved d i d := .kept rfl rfl rfl rfl

/-- A resize touches the size and the tuning only. -/
theorem dutyMoved_resized (d : Duty) (t : State) (i : Instr) : DutyMoved d i (d.resized t) := by
  obtain ⟨-, hr⟩ | ⟨-, hr⟩ := resized_cases d t
  · rw [hr]; exact .kept rfl rfl rfl rfl
  · rw [hr]; exact .refl d i

theorem dutyMoved_nextWr (d : Duty) (s t : State) (v : U32) (r : Reg) :
    DutyMoved d (.wr (regIndex r) v) (d.nextWr s t v r) := by
  cases r with
  | coeff =>
    rw [Duty.nextWr]
    cases hv : isNaN v with
    | true => exact .refl d _
    | false => exact .tuned v hv
  | ctrl =>
    rw [Duty.nextWr]
    split
    · exact .scanLeft v
    · exact .refl d _
  | nbmin => exact dutyMoved_resized d t _
  | gain =>
    rw [Duty.nextWr]
    split
    next hc => exact .driven v (Bool.and_eq_true_iff.1 hc).2
    next => exact .refl d _
  | status =>
    rw [Duty.nextWr]
    split
    next hc =>
      simp only [Bool.and_eq_true, decide_eq_true_eq] at hc
      exact .cleared v hc.2 hc.1
    next => exact .refl d _
  | _ => exact .refl d _

theorem dutyMoved_next (d : Duty) (s : State) (i : Instr) : DutyMoved d i (d.next s i) := by
  cases i with
  | nop => exact .refl d _
  | sample x => exact .sampled x _
  | blkend now =>
    rw [Duty.next]
    obtain ⟨-, hr⟩ | ⟨-, hr⟩ := resized_cases d (after (.blkend now) s)
    · rw [hr]; exact .kept rfl rfl rfl rfl
    · rw [hr]; exact .kept rfl rfl rfl rfl
  | wr a v =>
    obtain heq | ⟨r, rfl, heq⟩ := next_wr_cases d s a v
    · rw [heq]; exact .refl d _
    · rw [heq]; exact dutyMoved_nextWr d s _ v r
  | rd a =>
    rw [Duty.next]
    split
    · exact .kept rfl rfl rfl rfl
    · exact .refl d _
  | treset now => exact .timed now

section
variable {e : Duty}

/-- Only a TRESET answers the exit of a scan for the timing record. -/
theorem DutyMoved.timingStale (h : DutyMoved d i e) (hi : ∀ now, i ≠ .treset now) (hd : d.timingStale = true) :
    e.timingStale = true := by
  cases h with
  | kept _ htiming => exact htiming.trans hd
  | timed now => exact absurd rfl (hi now)
  | scanLeft => rfl
  | _ => exact hd

/-- A command that writes no number to COEFF. -/
def TunesNothing (i : Instr) : Prop := ∀ c, i = .wr (regIndex .coeff) c → isNaN c = true

/-- Without a COEFF write the filter stays untuned since the last SAMPLE. -/
theorem DutyMoved.untuned (h : DutyMoved d i e) (hi : TunesNothing i) (hd : d.tunedSinceSample = false) :
    e.tunedSinceSample = false := by
  cases h with
  | kept _ _ htuned => exact htuned.trans hd
  | tuned c hc => exact absurd (hc.symm.trans (hi c rfl)) Bool.false_ne_true
  | sampled => rfl
  | _ => exact hd

/-- Without a COEFF write the exit of a scan stays unanswered for the tone. -/
theorem DutyMoved.toneStale (h : DutyMoved d i e) (hi : TunesNothing i) (hd : d.tunedSinceSample = false)
    (htone : d.toneStale = true) : e.toneStale = true := by
  cases h with
  | kept _ _ _ hkept => exact hkept.trans htone
  | tuned c hc => exact absurd (hc.symm.trans (hi c rfl)) Bool.false_ne_true
  | scanLeft => exact congrArg not hd
  | _ => exact htone

end

/-! ## What each command does to the open block and to NBS_CHG -/

/-- Only SAMPLE and BLKEND count samples. -/
theorem after_keeps_scnt (hs : ∀ x, i ≠ .sample x) (hb : ∀ now, i ≠ .blkend now) : (after i s).scnt = s.scnt := by
  cases i with
  | nop | treset => rfl
  | sample x => exact absurd rfl (hs x)
  | blkend now => exact absurd rfl (hb now)
  | wr a v =>
    obtain ⟨-, heq⟩ | ⟨r, -, hw⟩ := after_wr_cases a v s
    · rw [heq]; rfl
    · obtain ⟨⟨-, -, hscnt⟩, -⟩ := hw.keeps
      exact hscnt
  | rd a =>
    obtain ⟨-, heq⟩ | ⟨r, -, heq⟩ := after_rd_cases a s
    · rw [heq]; rfl
    · rw [heq]; rfl

/-- Only a STATUS write with bit 6 clears NBS_CHG. -/
theorem after_keeps_nbsChg (hi : ∀ v, i = .wr (regIndex .status) v → v.getLsbD 6 = false) (h : s.nbsChg = true) :
    (after i s).nbsChg = true := by
  cases i with
  | nop | sample | treset => exact h
  | blkend now => exact pipelinePass_keeps_nbsChg now h
  | wr a v =>
    obtain ⟨-, heq⟩ | ⟨r, rfl, hw⟩ := after_wr_cases a v s
    · rw [heq]; exact h
    · exact hw.keeps_nbsChg (fun hr => hi v (by rw [hr])) h
  | rd a =>
    obtain ⟨-, heq⟩ | ⟨r, -, heq⟩ := after_rd_cases a s
    · rw [heq]; exact h
    · rw [heq]; exact h

/-! ## The commands that made the duties what they are -/

/-- The commands that gave the size read and the tuning. -/
structure TunedBy (d : Duty) (is : List Instr) : Prop where
  size : d.sizeRead ≠ none → [.rd (regIndex .nbs)].Sublist is
  tuned : d.tunedFor ≠ none → ∃ c, isNaN c = false ∧ [.rd (regIndex .nbs), .wr (regIndex .coeff) c].Sublist is

/-- The commands that brought the boot sequence where it is. -/
structure BootedBy (d : Duty) (is : List Instr) : Prop extends TunedBy d is where
  gainDriven : d.boot = .gainDriven → ∃ c g, isNaN c = false ∧
    [.rd (regIndex .nbs), .wr (regIndex .coeff) c, .wr (regIndex .gain) g].Sublist is
  done : d.boot = .done → ∃ c g v, isNaN c = false ∧ v &&& 0x78 = 0x78 ∧
    [.rd (regIndex .nbs), .wr (regIndex .coeff) c, .wr (regIndex .gain) g, .wr (regIndex .status) v].Sublist is

theorem TunedBy.next (h : TunedBy d is) (s : State) (i : Instr) : TunedBy (d.next s i) (is ++ [i]) := by
  have hleft : is.Sublist (is ++ [i]) := List.sublist_append_left is [i]
  obtain ⟨hsize, htuned⟩ := next_sizeRead_tunedFor d s i
  constructor
  case size =>
    intro hsome
    obtain heq | hnone | ⟨rfl, -, -⟩ := hsize
    · exact (h.size (heq ▸ hsome)).trans hleft
    · exact absurd hnone hsome
    · exact List.sublist_append_right is _
  case tuned =>
    intro hsome
    obtain heq | hnone | ⟨⟨a, c, rfl, ha, hc⟩, heq⟩ := htuned
    · obtain ⟨c, hc, hsub⟩ := h.tuned (heq ▸ hsome)
      exact ⟨c, hc, hsub.trans hleft⟩
    · exact absurd hnone hsome
    · cases eq_regIndex_of_regOfIndex ha
      exact ⟨c, hc, (h.size (heq ▸ hsome)).append (List.Sublist.refl [_])⟩

theorem BootedBy.next (h : BootedBy d is) (s : State) (i : Instr) : BootedBy (d.next s i) (is ++ [i]) := by
  have hleft : is.Sublist (is ++ [i]) := List.sublist_append_left is [i]
  have htrace := h.toTunedBy.next s i
  have hmoved := dutyMoved_next d s i
  generalize d.next s i = e at htrace hmoved
  have hkept (hboot : e.boot = d.boot) : BootedBy e (is ++ [i]) := by
    refine { htrace with gainDriven := fun hb => ?_, done := fun hb => ?_ }
    · obtain ⟨c, g, hc, hsub⟩ := h.gainDriven (hboot.symm.trans hb)
      exact ⟨c, g, hc, hsub.trans hleft⟩
    · obtain ⟨c, g, v, hc, hv, hsub⟩ := h.done (hboot.symm.trans hb)
      exact ⟨c, g, v, hc, hv, hsub.trans hleft⟩
  cases hmoved with
  | kept hboot => exact hkept hboot
  | driven g ht =>
    refine { htrace with gainDriven := fun _ => ?_, done := fun hb => Boot.noConfusion hb }
    obtain ⟨c, hc, hsub⟩ := h.tuned (Option.isSome_iff_ne_none.1 ht)
    exact ⟨c, g, hc, hsub.append (List.Sublist.refl [_])⟩
  | cleared v hv hb =>
    refine { htrace with gainDriven := fun hb => Boot.noConfusion hb, done := fun _ => ?_ }
    obtain ⟨c, g, hc, hsub⟩ := h.gainDriven hb
    exact ⟨c, g, v, hc, hv, hsub.append (List.Sublist.refl [_])⟩
  | _ => exact hkept rfl

theorem bootedBy_start : BootedBy Duty.start [] where
  size := fun h => absurd rfl h
  tuned := fun h => absurd rfl h
  gainDriven := fun h => Boot.noConfusion h
  done := fun h => Boot.noConfusion h

/-! ## The block -/

def isSample : Instr → Bool
  | .sample _ => true
  | _ => false

def isBlkend : Instr → Bool
  | .blkend _ => true
  | _ => false

/-- From an open block of length `n` to its BLKEND there are as many SAMPLEs as are missing: none at the full length, and
the BLKEND comes nowhere else. -/
theorem samples_to_blkend {n now : U32} {within : List Instr} (hopen : s.scnt ≠ 0) (hn : d.blockSize = some n)
    (hnone : within.any isBlkend = false) (h : dutiful d s (within ++ [.blkend now]) = true) :
    s.scnt.toNat + within.countP isSample = n.toNat := by
  induction within generalizing d s with
  | nil =>
    obtain ⟨hkeeps, -⟩ := Bool.and_eq_true_iff.1 h
    simp only [keepsDuty, hn, Option.some.injEq, Bool.and_eq_true, decide_eq_true_eq] at hkeeps
    obtain ⟨⟨-, hfull⟩, -⟩ := hkeeps
    rw [hfull]
    rfl
  | cons i within ih =>
    obtain ⟨hkeeps, hrest⟩ := Bool.and_eq_true_iff.1 h
    obtain ⟨hi, hwithin⟩ := Bool.or_eq_false_iff.1 (List.any_cons.symm.trans hnone)
    have hn' : (d.next s i).blockSize = some n := (next_blockSize d s i hopen).trans hn
    cases hsample : isSample i with
    | false =>
      have hscnt : (after i s).scnt = s.scnt :=
        after_keeps_scnt (fun x hx => by rw [hx] at hsample; cases hsample) fun now hb => by rw [hb] at hi; cases hi
      have hcount := ih (by rwa [hscnt]) hn' hwithin hrest
      rwa [hscnt, ← List.countP_cons_of_neg (a := i) (by rw [hsample]; exact Bool.false_ne_true)] at hcount
    | true =>
      obtain ⟨x, rfl⟩ : ∃ x, i = .sample x := by
        cases i with
        | sample x => exact ⟨x, rfl⟩
        | _ => cases hsample
      have hshort : some n ≠ some s.scnt := by
        simp only [keepsDuty, if_neg hopen, hn, Bool.and_eq_true, decide_eq_true_eq] at hkeeps
        exact hkeeps.1
      have hscnt : (after (.sample x) s).scnt.toNat = min (s.scnt.toNat + 1) (2 ^ 32 - 1) := by
        rw [after_sample]
        exact toNat_sat32 _
      have hopen' : (after (.sample x) s).scnt ≠ 0 := fun hzero => by
        have hzero : min (s.scnt.toNat + 1) (2 ^ 32 - 1) = 0 := hscnt.symm.trans (congrArg BitVec.toNat hzero)
        omega
      have hcount := ih hopen' hn' hwithin hrest
      rw [hscnt] at hcount
      rw [List.countP_cons_of_pos rfl]
      have hlt := n.isLt
      have hne : n.toNat ≠ s.scnt.toNat := fun heq => hshort (congrArg some (BitVec.eq_of_toNat_eq heq))
      have hlt' := s.scnt.isLt
      omega

/-- From its first SAMPLE to its BLKEND a block has as many SAMPLEs as NBS was, since NBS is the size read. -/
theorem samples_from_first {x : I16} {now : U32} {within : List Instr} (hkeeps : keepsDuty d s (.sample x) = true)
    (h : dutiful (d.next s (.sample x)) (after (.sample x) s) (within ++ [.blkend now]) = true) (hfirst : s.scnt = 0)
    (hnone : within.any isBlkend = false) : within.countP isSample + 1 = s.nbs.toNat := by
  obtain ⟨-, -, hsize, -⟩ := readyForBlock_of_keepsDuty hkeeps hfirst
  have hlength : (d.next s (.sample x)).blockSize = some s.nbs := (if_pos hfirst).trans hsize
  have hone : (after (.sample x) s).scnt = 1 := by
    rw [after_sample]
    exact congrArg (fun n : U32 => sat32 (n.toNat + 1)) hfirst
  have hcount := samples_to_blkend (by rw [hone]; decide) hlength hnone h
  rw [hone] at hcount
  exact (Nat.add_comm _ 1).trans hcount

/-! ## The clauses -/

/-- A scan that is left stays unanswered for the timing record until a TRESET. -/
theorem timingStale_of_no_treset {between : List Instr} (hno : ∀ now, Instr.treset now ∉ between)
    (h : d.timingStale = true) : (d.nextAll s between).timingStale = true :=
  run_keeps (P := fun d _ => d.timingStale = true)
    (fun i hi d s h => (dutyMoved_next d s i).timingStale (fun now heq => hno now (heq ▸ hi)) h) h

/-- A scan that is left with the filter untuned stays unanswered for the tone until a COEFF write. -/
theorem toneStale_of_untuned {between : List Instr} (hno : ∀ i ∈ between, TunesNothing i)
    (huntuned : d.tunedSinceSample = false) (h : d.toneStale = true) : (d.nextAll s between).toneStale = true :=
  (run_keeps (P := fun d _ => d.tunedSinceSample = false ∧ d.toneStale = true)
    (fun i hi d s h => ⟨(dutyMoved_next d s i).untuned (hno i hi) h.1,
      (dutyMoved_next d s i).toneStale (hno i hi) h.1 h.2⟩) ⟨huntuned, h⟩).2

theorem untuned_of_tunesNothing {later : List Instr} (hno : ∀ i ∈ later, TunesNothing i)
    (h : d.tunedSinceSample = false) : (d.nextAll s later).tunedSinceSample = false :=
  run_keeps (P := fun d _ => d.tunedSinceSample = false)
    (fun i hi d s h => (dutyMoved_next d s i).untuned (hno i hi) h) h

/-- The answer to NBS_CHG, which the duties ask for from no size read and no tuning on. -/
theorem resize_answered {x : I16} {between : List Instr} (hsize : d.sizeRead = none) (htuned : d.tunedFor = none)
    (hchg : s.nbsChg = true) (hkeeps : keepsDuty (d.nextAll s between) (afterAll between s) (.sample x) = true)
    (hfirst : (afterAll between s).scnt = 0) :
    ∃ (c : F32) (v : U32), isNaN c = false ∧ v.getLsbD 6 = true ∧
      [.rd (regIndex .nbs), .wr (regIndex .coeff) c].Sublist between ∧ .wr (regIndex .status) v ∈ between ∧
      (afterAll between s).nbsChg = false := by
  obtain ⟨-, hclear, -, hready⟩ := readyForBlock_of_keepsDuty hkeeps hfirst
  have hstart : TunedBy d [] := ⟨fun h => absurd hsize h, fun h => absurd htuned h⟩
  obtain ⟨-, htrace⟩ : TunedBy (d.nextAll s between) ([] ++ between) :=
    run_traces (fun d s is i (h : TunedBy d is) => h.next s i) hstart
  obtain ⟨c, hc, hsub⟩ := htrace (by rw [hready]; exact Option.some_ne_none _)
  obtain ⟨v, hv, hmem⟩ : ∃ v : U32, v.getLsbD 6 = true ∧ Instr.wr (regIndex .status) v ∈ between := by
    by_contra hno
    have hstays : (afterAll between s).nbsChg = true :=
      run_keeps (d := d) (P := fun _ s => s.nbsChg = true)
        (fun i hi _ _ h => after_keeps_nbsChg (fun v hv => by
          rw [hv] at hi
          exact Bool.eq_false_iff.2 fun hbit => hno ⟨v, hbit, hi⟩) h) hchg
    exact Bool.false_ne_true (hclear.symm.trans hstays)
  exact ⟨c, v, hc, hv, hsub, hmem, hclear⟩

/-- Settles O60: each clause looks at what the SAMPLE or BLKEND that ends the run asks, and at what the run before it has
done towards that. -/
theorem dutifulHostBootsFillsResizesAndLeavesScans :
    Obligations.DutifulHostBootsFillsResizesAndLeavesScans := by
  refine ⟨?boot, ?block, ?resize, ?timing, ?tone⟩
  case boot =>
    intro s before x h hfirst
    obtain ⟨hdone, -⟩ := readyForBlock_of_keepsDuty (keepsDuty_of_dutiful_concat h) hfirst
    have htrace : BootedBy (Duty.start.nextAll s before) ([] ++ before) :=
      run_traces (fun d s is i (h : BootedBy d is) => h.next s i) bootedBy_start
    exact htrace.done hdone
  case block =>
    intro d s before within x now h hfirst hnone
    rw [List.append_assoc, dutiful_append] at h
    obtain ⟨-, hblock⟩ := Bool.and_eq_true_iff.1 h
    obtain ⟨hkeeps, hrest⟩ := Bool.and_eq_true_iff.1 hblock
    exact samples_from_first hkeeps hrest hfirst hnone
  case resize =>
    intro d s before between i x hi h hchg hfirst
    have hkeeps := keepsDuty_of_dutiful_concat h
    rw [nextAll_append_cons, afterAll_append_cons] at hkeeps
    rw [afterAll_append_cons] at hfirst hchg ⊢
    obtain ⟨hsize, htuned⟩ := next_of_resize (d.nextAll s before) (afterAll before s) i hi hchg
    exact resize_answered hsize htuned hchg hkeeps hfirst
  case timing =>
    intro d s before between ctrl x h hscan hctrl
    by_contra hno
    have hkeeps := keepsDuty_of_dutiful_concat h
    rw [nextAll_append_cons] at hkeeps
    obtain ⟨hfresh, -⟩ := scanLeft_of_keepsDuty hkeeps
    have hleft := congrArg Duty.timingStale (next_wr_ctrl (d.nextAll s before) (afterAll before s) ctrl hscan hctrl)
    have hstale := timingStale_of_no_treset (s := after (.wr (regIndex .ctrl) ctrl) (afterAll before s))
      (not_exists.1 hno) hleft
    exact Bool.false_ne_true (hfresh.symm.trans hstale)
  case tone =>
    intro d s before later between y x ctrl h hscan hctrl _
    by_contra hno
    have hnothing : ∀ i ∈ later ++ between, TunesNothing i := by
      rintro _ hi c rfl
      exact by_contra fun hc => hno ⟨c, Bool.eq_false_iff.2 hc, hi⟩
    obtain ⟨hlater, hbetween⟩ := List.forall_mem_append.1 hnothing
    have hkeeps := keepsDuty_of_dutiful_concat h
    rw [nextAll_append_cons, nextAll_append_cons (i := .sample y)] at hkeeps
    obtain ⟨-, hfresh⟩ := scanLeft_of_keepsDuty hkeeps
    have huntuned := untuned_of_tunesNothing hlater (d := (d.nextAll s before).next (afterAll before s) (.sample y))
      (s := after (.sample y) (afterAll before s)) rfl
    generalize ((d.nextAll s before).next (afterAll before s) (.sample y)).nextAll _ later = e at hfresh huntuned
    have hleft := next_wr_ctrl e (afterAll (before ++ .sample y :: later) s) ctrl hscan hctrl
    have hstale := toneStale_of_untuned hbetween
      (s := after (.wr (regIndex .ctrl) ctrl) (afterAll (before ++ .sample y :: later) s))
      ((congrArg Duty.tunedSinceSample hleft).trans huntuned)
      ((congrArg Duty.toneStale hleft).trans (congrArg not huntuned))
    exact Bool.false_ne_true (hfresh.symm.trans hstale)

end

end Safety

end Sys2Proof
end
